-- ==== Sys2Proof/Word.lean ====
section
/-!
DEFINITION. The word types of the device: the 256-bit stored word of every memory and the 32-bit register of BAR0.
-/

namespace Sys2Proof

/-- One byte. -/
abbrev Byte := BitVec 8

/-- The 256-bit data word of every memory (opening sentence of file 15). -/
abbrev Word := BitVec 256

/-- A host-visible register (R7). -/
abbrev Reg := BitVec 32

/-- A line position, 48 bits (R31). -/
abbrev LinePos := BitVec 48

end Sys2Proof
end

