-- ==== Sys2Proof/Syntax.lean ====
section
/-!
DEFINITION. The commands of the block: one constructor of `Instr` per row of the table of operations and events
(spec/opcode_table.json), with the operands that the row's rule gives it.

A mailbox row is the doorbell write of its opcode (R486): its operands are the mailbox and the SEQ; its arguments lie in the
mailbox's ARG registers and payload area, which are state.  An operation row names the work item that its engine runs.
-/

namespace Sys2Proof

/-- The three rings whose consumer is the host (R423). -/
inductive HostRing where
  | cq | eq | lq
  deriving DecidableEq, Repr

/-- What fails on the Die Link (R416). -/
inductive LinkFailure where
  | module (m : Fin 2)
  | down
  deriving DecidableEq, Repr

/-- The line state carried by a LINE message or held by the Line Timer (R43). -/
inductive LineState where
  | running | stopped | lost
  deriving DecidableEq, Repr

/-- An engine instance, Work Core or panel that asks the Shuttle for work (R104, R109). -/
inductive Engine where
  | workCore (n : Fin 64)
  | panel (n : Fin 16)
  | lane (n : Fin 8)
  | pse (n : Fin 8)
  | darn (n : Fin 4)
  | tks (n : Fin 2)
  | tracer (unit : Fin 3)
  | seam
  | moveEngine (n : Fin 16)
  | fieldPort (n : Fin 4)
  | frameIntake (n : Fin 4)
  | cc (n : Fin 4)
  | lineTimer
  deriving DecidableEq, Repr

/-- A class of the self-test plan (R369). -/
inductive TestClass where
  | workCore | panel | lane | tks | pse | darn | tracerGroup | seam
  deriving DecidableEq, Repr

/-- One slice of the self-test plan: class, instance, and slice number within the instance (R369). -/
structure TestSlice where
  cls : TestClass
  inst : Fin 64
  slice : Fin 2
  deriving DecidableEq, Repr

/-- The sources of the Tamper Monitor (R510). -/
inductive TamperSource where
  | pin | voltage | clock | temperature
  deriving DecidableEq, Repr

/-- Outcome of the header ECC of a CSI-2 packet (R326). -/
inductive HeaderEcc where
  | ok | corrected | lost
  deriving DecidableEq, Repr

/-- What the far end of a Peer Link reports at a training (R459). -/
structure FarEnd where
  position : Fin 8
  link : Fin 7
  deriving DecidableEq, Repr

/-- The pins that a wake reads: the board position and TEST_MODE (R459, R500). -/
structure Straps where
  bpos : Fin 8
  testMode : Fin 4
  deriving DecidableEq, Repr

/-- One entry of a FULL_STATE body (R464). -/
structure FullEntry where
  sliceTag : BitVec 8
  wordIndex : BitVec 16
  word : Word
  deriving DecidableEq, Repr

/-- A received flit (R460).  `payload` holds the first bytes of the 236, the rest being zero; `zeros`: every bit that R460 gives as zero is zero. -/
structure Flit where
  crcOk : Bool
  vc : Fin 4
  start : Bool
  last : Bool
  null : Bool
  fseq : BitVec 12
  ack : BitVec 12
  nak : Bool
  credits : BitVec 32
  used : BitVec 8
  zeros : Bool
  payload : List Byte
  deriving DecidableEq, Repr

/-- The commands of the block, one per row of the table. -/
inductive Instr where
  -- mailbox commands (R486 to R488)
  | jobDefine (mbx : Fin 4) (seq : BitVec 16)
  | jobDelete (mbx : Fin 4) (seq : BitVec 16)
  | tableLoad (mbx : Fin 4) (seq : BitVec 16)
  | listLoad (mbx : Fin 4) (seq : BitVec 16)
  | configWrite (mbx : Fin 4) (seq : BitVec 16)
  | jobArm (mbx : Fin 4) (seq : BitVec 16)
  | jobDisarm (mbx : Fin 4) (seq : BitVec 16)
  | channelGoal (mbx : Fin 4) (seq : BitVec 16)
  | servicePriority (mbx : Fin 4) (seq : BitVec 16)
  | patternInstall (mbx : Fin 4) (seq : BitVec 16)
  | patternRetire (mbx : Fin 4) (seq : BitVec 16)
  | networkLoad (mbx : Fin 4) (seq : BitVec 16)
  | safetyResume (mbx : Fin 4) (seq : BitVec 16)
  | memoryMode (mbx : Fin 4) (seq : BitVec 16)
  | memFlipArm (mbx : Fin 4) (seq : BitVec 16)
  | memRepair (mbx : Fin 4) (seq : BitVec 16)
  | moveEngineResume (mbx : Fin 4) (seq : BitVec 16)
  | lineReference (mbx : Fin 4) (seq : BitVec 16)
  | syncAlign (mbx : Fin 4) (seq : BitVec 16)
  | fwLoad (mbx : Fin 4) (seq : BitVec 16)
  | traceControl (mbx : Fin 4) (seq : BitVec 16)
  | attest (mbx : Fin 4) (seq : BitVec 16)
  | powerState (mbx : Fin 4) (seq : BitVec 16)
  | lifecycleSet (mbx : Fin 4) (seq : BitVec 16)
  | keyProvision (mbx : Fin 4) (seq : BitVec 16)
  | unknownOpcodeRefusal (mbx : Fin 4) (opcode : BitVec 16) (seq : BitVec 16)
  | doorbellCollision (mbx : Fin 4) (value : Reg)
  -- host registers, BAR2 and the Die Link
  | mbxSqTailWrite (value : Reg)
  | ringHeadWrite (ring : HostRing) (value : Reg)
  | alarmStickyClear (m : Fin 8) (value : Reg)
  | firstFaultUnfreeze (value : Reg)
  | registerWrite (offset : BitVec 28) (width : Nat) (value : Reg)
  | registerLoRead (offset : BitVec 28) (width : Nat)
  | bar2Read (addr : BitVec 36) (len : Nat)
  | bar2Write (addr : BitVec 36) (bytes : List (Option Byte))
  | submissionEntry
  | functionLevelReset
  | d3hotEntry
  | msiXMessage (vector : Fin 5)
  | dieLinkFailure (what : LinkFailure)
  | dieLinkRetrain (trained : BitVec 2)
  -- Line Timer, SYNC and line distribution
  | encoderCount (input : Fin 2) (a b : Bool)
  | encoderZEdge (input : Fin 2)
  | encoderFaultInput (input : Fin 2)
  | encoderCapture
  | encoderRedundantCompare
  | lineStateEvaluation
  | virtualAdvance
  | lineTick
  | lineMessageSample
  | lineMessageReceive (link : Fin 7) (g : BitVec 64) (m v : LinePos) (st : LineState) (reverse : Bool) (count : BitVec 16)
  | lineMessageApply
  | lineMsgTimeout
  | syncEdge
  | syncTimeout
  -- jobs and the Shuttle
  | jobLaunch
  | listTriggering
  | signalApply
  | waitLimitExpiry (item : Nat)
  | engineGet (engine : Engine)
  | itemCompletion (item : Nat)
  | releasedItemReady
  | releaseDeadline (channel : Fin 16)
  -- operations, each on the work item that runs it
  | nop (item : Nat)
  | jobEvent (item : Nat)
  | signal (item : Nat)
  | wait (item : Nat)
  | delayInsert (item : Nat)
  | delayCancel (item : Nat)
  | epochCommit (item : Nat)
  | epochApply (item : Nat)
  | deltaInject (item : Nat)
  | edgeRead (item : Nat)
  | search (item : Nat)
  | darn (item : Nat)
  | structureLoad (item : Nat)
  | ease (item : Nat)
  | qpSolve (item : Nat)
  | lsqFitClearAccumulate (item : Nat)
  | lsqFitAccumulate (item : Nat)
  | lsqFitSolve (item : Nat)
  | networkSegment (item : Nat)
  | matmul (item : Nat)
  | topk (item : Nat)
  | topkMerge (item : Nat)
  | frameTake (item : Nat)
  | frameTakeTimeout (item : Nat)
  | frameReturn (item : Nat)
  | goldenInject (item : Nat)
  | checkB (item : Nat)
  | stitch (item : Nat)
  | hold (item : Nat)
  | copy (item : Nat)
  | fill (item : Nat)
  | gather (item : Nat)
  | setpointSend (item : Nat)
  | correctionSend (item : Nat)
  | deltaBroadcast (item : Nat)
  | candSend (item : Nat)
  | candGather (item : Nat)
  | gatherLimitExpiry (item : Nat)
  | kernel (item : Nat)
  -- background work of the Tracer and the occupancy intake
  | rotationCount
  | recount
  | recountOverflowSweep
  | fullCount
  | recountOverdue
  | sliceBoundary
  | obsSourceTimeout (port : Fin 4)
  | peerSourceTimeout (link : Fin 7)
  -- Frame Intake
  | frameStart (port : Fin 4) (vc : Fin 4) (number : BitVec 16) (ecc : HeaderEcc)
  | csiLongPacket (port : Fin 4) (vc : Fin 4) (dataType : BitVec 6) (wordCount : Nat) (payload : List Byte) (crcOk : Bool)
      (ecc : HeaderEcc)
  | frameEnd (port : Fin 4) (vc : Fin 4) (number : BitVec 16) (ecc : HeaderEcc)
  | frameMaxTimeout (port : Fin 4)
  | ffmDecision (port : Fin 4)
  -- Field Ports
  | fpTransmitOpportunity (port : Fin 4)
  | timeFrameDue (port : Fin 4)
  | setpointLateDiscard (port : Fin 4)
  | fpFrameReceive (port : Fin 4) (frame : List Byte) (fcsOk : Bool)
  | fpFeedbackTimeout (port : Fin 4) (node : Fin 8)
  | plcaCoordinatorLost (port : Fin 4)
  | plcaResume (port : Fin 4)
  -- Peer Links
  | plLinkTraining (link : Fin 7) (far : Option FarEnd)
  | plRetryLimit (link : Fin 7)
  | plRetrainRetry (link : Fin 7) (far : Option FarEnd)
  | plCreditTimeout (link : Fin 7) (vc : Fin 4)
  | deltaMessage (link : Fin 7) (tag : BitVec 32) (more : Bool) (records : List (BitVec 32))
  | fullStateReq (link : Fin 7)
  | fullState (link : Fin 7) (tag : BitVec 32) (entries : List FullEntry)
  | candMessage (link : Fin 7) (tag : BitVec 32) (list : List Word)
  | configMessage (link : Fin 7) (slicePeriod slicePhase pitch : BitVec 32) (sig : BitVec 64)
  | peerConfigTimeout (link : Fin 7)
  -- memories
  | eccWriteBack
  | correctionWindowEnd
  | autoRepair
  | mcRequestPromotion
  -- Safety Manager, self-test, firmware cores
  | safeReqAssert
  | safeReqRelease
  | safeOkReadback (p n : Bool)
  | coverageEvaluation
  | selftestSliceStart (target : TestSlice)
  | selftestSliceEnd (target : TestSlice) (pass : Bool)
  | watchdogExpiry (core : Fin 4)
  | ccCoreReady (core : Fin 4)
  -- tamper, reset and power
  | tamperEvent (source : TamperSource)
  | thimbleWipeDone
  | porstAssert
  | wake (straps : Straps) (gib : Fin 65)
  | powerOffSwitch
  | encoderFaultInputRelease (input : Fin 2)
  | encoderOverspeedEnd
  | d3hotExit
  | powerRemoval (aonLost : Bool)
  | plFlitReceive (link : Fin 7) (flit : Flit)
  | csiShortPacket (port : Fin 4) (vc : Fin 4) (dataType : BitVec 6) (ecc : HeaderEcc)
  deriving DecidableEq, Repr

end Sys2Proof
end

