-- ==== Sys2Proof/Decode.lean ====
section
/-!
DEFINITION. The words of the table.  No row of the table gives bits: commands reach the block as register writes, pins, packets and
events, so no word spells one (assumption log 13).
-/

namespace Sys2Proof

/-- The command that a word spells by the table's bits: none, since no row gives bits. -/
def decodeTableWord (_nbits _w : Nat) : Option Instr := none

end Sys2Proof
end

