-- ==== Sys2Proof/Config.lean ====
section
/-!
DEFINITION. What an implementation fixes and what the manual leaves open: opaque constants, so that no proof can see a value.
Assumption log 5 names the free values, log 6 the cryptographic functions, log 7 the kernels of the signed library.
-/

namespace Sys2Proof.Config

/-- Data of a stored word whose contents the manual leaves undefined (R382, R406); the argument is the draw number. -/
opaque freeData : Nat → Word

/-- Check bits of such a word. -/
opaque freeCheck : Nat → BitVec 32

/-- A 64-bit value that the manual leaves open; the argument is the draw number. -/
opaque freeValue : Nat → BitVec 64

/-- A fault of the logic that an engine builds twice or covers with a checksum (assumption log 69): the exact sum of a DPU of a
tile is off by error × 2^exponent at one column and chunk, one copy of its accumulation differs, one copy of the output stage of a tile's
panel differs, one copy of the Seam's decision differs, one copy of the Safety Manager differs. -/
inductive Upset where
  | dpuSum (layer tile column chunk : Nat) (dpu : Fin 64) (error exponent : Int)
  | accumulation (layer tile : Nat) (dpu : Fin 64)
  | outputStage (layer tile : Nat)
  | seamCopy
  | managerCopy
  deriving DecidableEq, Repr

/-- The fault of that logic while the draw with the given number stands; no number of faults is ruled out (R290 to R293, R361, R374). -/
opaque upset : Nat → Option Upset

/-- The hottest junction sensor in 1/16 °C and the estimated power in 0.1 W at a sample (LCC_TEMP, LCC_POWER_EST, R492); the argument is the draw number. -/
opaque junction : Nat → BitVec 16
opaque power : Nat → BitVec 12

/-- What the firmware writes to its log of its own accord (R428): the core, the trace point or none for a LOG record, the level of a LOG record,
the message number and its arguments. -/
structure FirmwareNote where
  core : Fin 4
  point : Option (Fin 32)
  level : Fin 4
  message : BitVec 16
  arg0 : Reg
  arg1 : Reg
  arg2 : Reg
  arg3 : BitVec 64
  deriving DecidableEq, Repr

/-- What the firmware has to log at the draw with the given number: messages and trace points are defined by its release (R428). -/
opaque firmwareNote : Nat → Option FirmwareNote

/-- FIPS 204 ML-DSA-65 signature, 3,309 bytes, under the identity key of a device secret (R439). -/
opaque mlDsaSign : BitVec 256 → List Byte → BitVec 26472

/-- The identity public key, 1,952 bytes, that the device secret gives (R439, R503 step 5). -/
opaque identityKey : BitVec 256 → BitVec 15616

/-- The bases that the driver gives BAR0 and BAR2, and the address and data that it gives an MSI-X vector (R415; assumption log 30). -/
opaque bar0 : BitVec 36
opaque bar2 : BitVec 28
opaque msixAddress : Nat → BitVec 64
opaque msixData : Nat → BitVec 32

/-- SUM_REST of a selection whose sum the manual does not state, of its parameter block and its inputs (assumption log 38). -/
opaque sumRest : Word → List (List Word) → BitVec 64

/-- What a kernel of the signed library runs on: the library (IMAGE_DIGEST of the firmware that brought it), PARAM, the words of its read
operands, by operand, what its reduction has given (R474), and what its atomics have returned so far, none for a lane marked poisoned (R394). -/
structure KernelCall where
  library : BitVec 512
  param : BitVec 32
  inputs : List (List Word)
  reduced : List Word := []
  returned : List (Option Nat) := []
  deriving DecidableEq, Repr

/-- The draws of an item by the generator of R480: stream selector SEL and draw number give 128 bits, and the uniform value formed from them. -/
structure Draws where
  raw : Nat → Nat → BitVec 128
  uniform : Nat → Nat → Rat

/-- The mark of the kernel that a library lists under PARAM (R474): none where it does not reduce, else whether its elements or partials are
floating-point. -/
opaque kernelReduces : BitVec 512 → BitVec 32 → Option Bool

/-- A library may mark a kernel VARY beside those of R474 (R78, R79). -/
opaque kernelVaries : BitVec 512 → BitVec 32 → Bool

/-- The longest invocation of a kernel in ns, the load of R105 included, as the library gives it for the lengths of the operands in words (R27). -/
opaque kernelTime : BitVec 512 → BitVec 32 → List Nat → Nat

/-- The reduction of a reducing kernel: its number of elements, the partial result of no element, the partial with one element more, and the
combination of two partials, each rounded as the kernel's definition states (R474). -/
opaque kernelElements : KernelCall → Nat
opaque kernelStart : KernelCall → List Word
opaque kernelElement : KernelCall → Draws → List Word → Nat → List Word
opaque kernelCombine : KernelCall → List Word → List Word → List Word

/-- The words of the library, counted from its first, that a kernel occupies (R105). -/
opaque kernelCode : BitVec 512 → BitVec 32 → List Nat

/-- The words, from the operand's OFFSET on, that a kernel writes to the write operand of the given number (R474, R481). -/
opaque kernelOutput : KernelCall → Draws → Nat → List Word

/-- An atomic of R394 that a kernel performs on a word of an operand. -/
structure KernelAtomic where
  operand : Nat
  word : Nat
  op : Fin 4
  lane : Fin 8
  value : BitVec 64
  deriving DecidableEq, Repr

/-- The number of atomics that a kernel performs at most, and the next one, which may depend on what the earlier ones returned. -/
opaque kernelAtomics : KernelCall → Draws → Nat
opaque kernelAtomic : KernelCall → Draws → Option KernelAtomic

end Sys2Proof.Config
end

