-- ==== Sys2Proof/Machine/State.lean ====
section
/-!
DEFINITION. The state of the block as plain data: every register, queue, buffer, counter, mode and memory that the spec names.
Every field has its reset value as its default; a default that the spec does not state is named in the assumption log
(entry 3 for registers and monitors, entry 4 for the Fuse Map and board straps).
Status registers of BAR0 are mirrors (R492): they are computed from this state in Machine/Registers.lean.
-/

namespace Sys2Proof.Machine

open Sys2Proof

/-! ## Names -/

/-- The grades of R2. -/
inductive Grade where
  | ft9_64I | ft9_48I
  deriving DecidableEq, Repr

/-- The power states of R501. -/
inductive PowerState where
  | on | idle | off
  deriving DecidableEq, Repr

/-- The life-cycle states of R507, in code order. -/
inductive LifeCycle where
  | blank | manufacture | provisioned | field | returned | scrapped
  deriving DecidableEq, Repr

/-- The completion statuses of R11, in the code order of R88. -/
inductive Status where
  | ok | refused | timeout | poisoned | deadlineBest | noFreshPath | disagree | aborted
  deriving DecidableEq, Repr

/-- The roles of R55. -/
inductive LineRole where
  | single | master | follower
  deriving DecidableEq, Repr

/-- The job states of R65. -/
inductive JobState where
  | defined | armed | running | disarming
  deriving DecidableEq, Repr

/-- The firmware stages of MBX_FW_STATUS. -/
inductive FwStage where
  | bootRom | loading | running | updating
  deriving DecidableEq, Repr

/-- The states of a frame buffer (R328). -/
inductive BufState where
  | free | filling | full | held
  deriving DecidableEq, Repr

/-! ## Memory (file 15) -/

/-- A stored word: 256 data bits and 32 check bits (R383). -/
structure Stored where
  data : Word
  check : Reg
  deriving DecidableEq, Repr

/-- An entry of the merge buffer: a word and the bytes merged so far, byte 0 first (R405). -/
structure MergeEntry where
  word : Nat
  bytes : List (Option Byte)
  deriving DecidableEq, Repr

/-- An armed flip (R408). -/
structure Flip where
  memory : Nat
  inst : Nat
  addr : Option Nat
  dataMask : Word
  checkMask : Reg
  deriving DecidableEq, Repr

/-- The corrections of one memory in the current 1 ms window (R390). -/
structure CorrWindow where
  memory : Nat
  inst : Nat
  count : Nat
  addr : Nat
  syndrome : Reg
  requester : Nat
  gcnt : BitVec 64
  rowCol : Bool
  hard : Bool
  job : BitVec 16
  service : Nat
  deriving DecidableEq, Repr

/-- A row or column repair (R409 to R412). -/
structure Repair where
  memory : Nat
  inst : Nat
  column : Bool
  bank : Nat
  index : Nat
  commit : Bool
  deriving DecidableEq, Repr

/-- A corrected word that waits for its write-back, with the memory-controller class of its request (R389, R397). -/
structure WriteBack where
  key : Nat
  since : Nat
  class1 : Bool
  deriving DecidableEq, Repr

/-- One remembered correction: word key, stored bit position, and whether it was a hard-fault candidate (R410). -/
structure Correction where
  key : Nat
  bit : Nat
  hard : Bool
  deriving DecidableEq, Repr

/-- Memory contents by word key; none where the contents are undefined (assumption log 1). -/
abbrev Memory := List (Nat × Option Stored)

/-- The first violation since wake (MEM_VIOL_FIRST). -/
structure FirstViolation where
  addr : Nat
  requester : Nat
  register : Bool
  write : Bool
  narrow : Bool
  deriving DecidableEq, Repr

/-- The memory side of the device beside the cells themselves. -/
structure MemCtl where
  /-- write policy: true Maintenance (R403; wakes in Maintenance) -/
  maintenance : Bool := true
  /-- MEM_STATUS.CLEAR_DONE (R406) -/
  clearDone : Bool := false
  /-- LPDDR5 regions installed and trained (R380, MEM_CONFIG) -/
  regions : Nat := 0
  /-- merge buffer, oldest first (R405) -/
  merge : List MergeEntry := []
  /-- armed flip (R408) -/
  flip : Option Flip := none
  flipFired : Bool := false
  /-- MEM_CORRECTED, MEM_UNCORR (R390, R392) -/
  corrected : Nat := 0
  uncorr : Nat := 0
  poisonReads : Nat := 0
  /-- MEM_LAST_UNCORR and its INFO register -/
  lastUncorr : Nat := 0
  lastUncorrInfo : Reg := 0
  /-- the last 64 corrections of each memory instance, newest first (R410) -/
  history : List (Nat × List Correction) := []
  /-- the memories with a correction in the current window (R390) -/
  windows : List CorrWindow := []
  /-- corrected words that wait for write-back, oldest first (R389) -/
  writeBacks : List WriteBack := []
  /-- hard-fault candidates that AUTO_REPAIR has not repaired yet (R410) -/
  candidates : List Correction := []
  /-- soft-repair set (R411) -/
  softRepairs : List Repair := []
  /-- MEM_HARD: candidates and repairs applied -/
  hard : Nat := 0
  repairsApplied : Nat := 0
  /-- MEM_MERGE: words written whole, entries dropped -/
  mergeWritten : Nat := 0
  mergeDropped : Nat := 0
  /-- MEM_VIOL_n: access violations and narrow writes dropped of requesters 0 to 96 (R407) -/
  violations : List (Nat × Nat) := List.replicate 97 (0, 0)
  firstViolation : Option FirstViolation := none
  deriving DecidableEq, Repr

/-- The Move Engines (R401). -/
structure MoveEngines where
  /-- bit n: MEn is halted -/
  halted : BitVec 16 := 0
  /-- ME_HALT_n: the address captured by MEn -/
  haltAddr : List Nat := List.replicate 16 0
  deriving DecidableEq, Repr

/-! ## Mailboxes, rings, alarms, firmware (file 16) -/

/-- One mailbox (R419, R420). -/
structure Mailbox where
  busy : Bool := false
  done : Bool := false
  collision : Bool := false
  /-- CLASS: true IMMEDIATE -/
  immediate : Bool := false
  seq : BitVec 16 := 0
  /-- opcode of the accepted command; meaningful while busy -/
  opcode : BitVec 16 := 0
  /-- the command has started; meaningful while busy -/
  started : Bool := false
  /-- the command has waited through an update, and runs in acceptance order (R433); meaningful while accepted -/
  waited : Bool := false
  /-- a JOB_ARM, and a JOB_DISARM of its job accepted while it was accepted and not complete; or that JOB_DISARM (R489); meaningful while busy -/
  met : Bool := false
  /-- MBX_n_ARG0 to 15 -/
  args : List Reg := List.replicate 16 0
  /-- MBX_n_RESULT0 to 7 as one completion record -/
  result : Word := 0
  deriving DecidableEq, Repr

/-- The indices of one ring and its drops (R424, R425).  `gap` counts the drops that no marker reports yet. -/
structure Ring where
  tail : Reg := 0
  head : Reg := 0
  drops : Nat := 0
  gap : Nat := 0
  gapGcnt : BitVec 64 := 0
  gapCore : Nat := 0
  deriving DecidableEq, Repr

/-- The four rings and the errors of their indices. -/
structure Rings where
  sq : Ring := {}
  cq : Ring := {}
  eq : Ring := {}
  lq : Ring := {}
  /-- MBX_RING_ERRORS: index writes ignored; submission entries refused -/
  indexErrors : Nat := 0
  entryErrors : Nat := 0
  deriving DecidableEq, Repr

/-- First values and count of one sticky alarm class (R437). -/
structure AlarmRecord where
  cls : Nat
  count : Nat
  gcnt : BitVec 64
  lpos : LinePos
  detailA : BitVec 16
  detailB : BitVec 16
  deriving DecidableEq, Repr

/-- The First Fault record while frozen (R437). -/
structure FirstFault where
  cls : Nat
  gcnt : BitVec 64
  lpos : LinePos
  detailA : BitVec 16
  detailB : BitVec 16
  deriving DecidableEq, Repr

/-- One MSI-X vector: due, the Global Counter of its previous message since the last reset of the function (R430), and its entry of the MSI-X table:
mask, address and data. -/
structure Vector5 where
  due : Bool := false
  lastSent : Option Nat := none
  masked : Bool := true
  address : BitVec 64 := 0
  data : Reg := 0
  deriving DecidableEq, Repr

/-- The function's configuration space (R415, R417): what its driver sets, memory decoding, bus mastering, the bases of the BARs, and the enable and
function mask of MSI-X, at reset as PCI Express has them; and what reads as it is, the header and the error status (PRESUMED, log 30). -/
structure PcieConfig where
  headerType : BitVec 8 := 0
  classCode : BitVec 24 := 0x120000
  maxPayload : Nat := 256
  memoryEnable : Bool := false
  busMaster : Bool := false
  /-- bits above the 256 MiB of BAR0 and the 64 GiB of BAR2 -/
  bar0 : BitVec 36 := 0
  bar2 : BitVec 28 := 0
  msixEnable : Bool := false
  msixMask : Bool := false
  /-- Advanced Error Reporting: status of correctable and uncorrectable errors -/
  aerCorrectable : Reg := 0
  aerUncorrectable : Reg := 0
  deriving DecidableEq, Repr

/-- The PCIe function and the Die Link (R415 to R418). -/
structure HostLink where
  /-- modules in use, bit m (MBX_LINK_STATUS) -/
  modules : BitVec 2 := 0
  retrains : Nat := 0
  /-- flit replays and uncorrectable flit errors (MBX_LINK_ERRORS) -/
  replays : Nat := 0
  flitErrors : Nat := 0
  /-- power management state D3hot (R417) -/
  d3hot : Bool := false
  vectors : List Vector5 := List.replicate 5 {}
  config : PcieConfig := {}
  /-- Global Counter at which the link went down (R416) -/
  downAt : Nat := 0
  /-- MBX_INT_HOLDOFF as written (R430) -/
  holdoff : BitVec 10 := 10
  deriving DecidableEq, Repr

/-- The answer to the latest host read: data bytes and the poisoned (EP) indication (R418). -/
structure HostReply where
  data : List Byte := []
  poisoned : Bool := false
  deriving DecidableEq, Repr

/-- The firmware and its cores (R431 to R435). -/
structure Firmware where
  stage : FwStage := .bootRom
  /-- bit n: CCn reports ready -/
  ready : BitVec 4 := 0
  /-- bit n: CCn is held -/
  held : BitVec 4 := 0
  /-- bit n: the watchdog of CCn has expired and the core has not reported ready since (R435) -/
  expired : BitVec 4 := 0
  version : Reg := 0
  /-- IMAGE_DIGEST of the running firmware -/
  digest : BitVec 512 := 0
  svn : Nat := 0
  /-- bit n: CCn has been held since wake, so that its WATCHDOG cause stands (R435) -/
  stuck : BitVec 4 := 0
  /-- LAST_FAIL of MBX_FW_STATUS -/
  lastFail : BitVec 16 := 0
  /-- expiries of WDTn (MBX_WDT) -/
  expiries : List Nat := [0, 0, 0, 0]
  /-- Global Counter of the latest restart of CCn by its watchdog -/
  lastRestart : List (Option Nat) := [none, none, none, none]
  /-- Global Counter of CCn's report of readiness, from which its watchdog runs (R435) -/
  kicked : List Nat := [0, 0, 0, 0]
  /-- trace mask in force (R429) -/
  traceMask : Reg := 0
  /-- attestation reports signed since wake (R439) -/
  reports : Nat := 0
  deriving DecidableEq, Repr

/-! ## Line Timer (file 02) -/

/-- One encoder input: accepted levels and the counts decoded from it (R35 to R42). -/
structure EncInput where
  levelA : Bool := false
  levelB : Bool := false
  /-- FLT_N stands low after its filter -/
  faultLow : Bool := false
  /-- count n within the machine cycle (R37) -/
  n : Nat := 0
  /-- reverse counter ρ (R38) -/
  rho : Nat := 0
  /-- forward counts since the last reference (R41) -/
  forward : Nat := 0
  /-- forward counts that advanced n since the last accepted Z (R39) -/
  sinceZ : Nat := 0
  /-- 0x0B43 has been met in that count, which meets it once (R39, R42) -/
  zMissing : Bool := false
  /-- the 1 ms window of the illegal transitions counted, and their number (R42) -/
  illegalWindow : Nat := 0
  illegalCount : Nat := 0
  /-- a loss condition of this input has occurred since the last reference (R41) -/
  lost : Bool := false
  deriving DecidableEq, Repr

/-- An entry of the capture FIFO (R41). -/
structure Capture where
  m : LinePos
  v : LinePos
  gcnt : BitVec 64
  deriving DecidableEq, Repr

/-- A service reference: the job slot (none: device level) and the SERVICE_ID (R86). -/
structure ServiceRef where
  slot : Option Nat
  service : Nat
  deriving DecidableEq, Repr

/-- A delay-list entry (R47) with the mark of its next firing (R49) and the service that placed it. -/
structure DelayEntry where
  key : LinePos
  period : BitVec 24
  event : Bool
  syncObj : Nat
  tag : Reg
  late : Bool
  owner : ServiceRef
  deriving DecidableEq, Repr

/-- A sample of the line master (R58, R465).  `link` is none for the device's own sample. -/
structure LineSample where
  g : Nat
  m : LinePos
  v : LinePos
  st : LineState
  reverse : Bool
  late : Bool
  /-- a Z correction moved the encoder side of the MASTER since its sample before: the move counts as a Line Tick (R39) -/
  tick : Bool := false
  link : Option Nat
  deriving DecidableEq, Repr

/-- An armed SYNC alignment (R56): mailbox, value A, and the Global Counter of its timeout. -/
structure SyncArm where
  mbx : Nat
  value : Nat
  limit : Nat
  deriving DecidableEq, Repr

/-- The Line Timer. -/
structure Line where
  /-- machine position M (R32; 0 on wake, R43) -/
  m : LinePos := 0
  /-- virtual line position V -/
  v : LinePos := 0
  /-- the positions that the encoder side of a MASTER has reached; its own M and V follow them by DIST_DELAY (R58) -/
  genM : LinePos := 0
  genV : LinePos := 0
  /-- a Z correction has moved genM since the latest sample of a MASTER (R39) -/
  genTick : Bool := false
  /-- the ENC_COUNTS under which n counts; 0 before the first LINE block since wake (R61) -/
  counts : Nat := 0
  state : LineState := .lost
  lossReason : BitVec 16 := 0x0B47
  /-- on a follower: LOST because the samples of the master say so (R58) -/
  remoteLost : Bool := false
  /-- counting comes from encoder input 1 (R41) -/
  source1 : Bool := false
  enc0 : EncInput := {}
  enc1 : EncInput := {}
  /-- Global Counter values of the forward counts of the last 1 µs (R40) -/
  forwardTimes : List Nat := []
  overspeed : Bool := false
  /-- accumulator F of R44, thousandths of an LU -/
  fraction : Nat := 0
  /-- VIRT_ADV of LT_STATUS: the generator advances V -/
  generator : Bool := false
  /-- advance of M since the last step of V and since the last evaluation, reference jumps excluded (R43, R44) -/
  sinceStep : Nat := 0
  sinceEval : Nat := 0
  /-- advances of M over the last evaluation intervals, newest first (R43) -/
  window : List Nat := []
  capture : List Capture := []
  /-- LT_ENC_ERRORS: illegal transitions, Z corrections, capture drops -/
  illegal : Nat := 0
  zCorrections : Nat := 0
  captureDrops : Nat := 0
  /-- LT_LATE_COUNT: LATE firings, late line messages -/
  lateFirings : Nat := 0
  lateMessages : Nat := 0
  aligned : Bool := false
  /-- armed SYNC alignments, oldest first (R56) -/
  syncArm : List SyncArm := []
  /-- ns for which a MASTER still holds SYNC low (R56) -/
  syncLow : Nat := 0
  /-- line samples that wait for their application time (R58) -/
  samples : List LineSample := []
  /-- Global Counter of the latest line message applied (R42) -/
  lastApplied : Nat := 0
  /-- sample time of the latest line message applied (R58) -/
  lastSample : Nat := 0
  /-- a LINE_REFERENCE waits for the master's next sample (R59) -/
  adopt : Bool := false
  /-- V holds until the master's V catches up (R59) -/
  holdV : Bool := false
  /-- board position of the line master heard (R60) -/
  masterPos : Option Nat := none
  /-- the reverse flag of the latest sample applied on a follower -/
  remoteReverse : Bool := false
  /-- DL0 to DL3, in insertion order (R46) -/
  lists : List (List DelayEntry) := [[], [], [], []]
  /-- the list's position has moved past a multiple of LINE_TICK that has not ticked yet (R48) -/
  tickDue : List Bool := [false, false, false, false]
  deriving DecidableEq, Repr

/-! ## Contract objects (file 03) -/

/-- A buffer-table entry (R72); `base` is a device byte address. -/
structure Buffer where
  base : Nat
  size : Nat
  owner : Nat
  readers : BitVec 64
  deriving DecidableEq, Repr

/-- An instruction list of a service: its entries of 64 bytes (R74). -/
structure InstrList where
  service : Nat
  number : Nat
  entries : List (BitVec 512)
  deriving DecidableEq, Repr

/-- A configuration block as written: its words, header included (R70, R71). -/
structure Block where
  serviceType : Nat
  service : Nat
  jobId : BitVec 16
  enabled : Bool
  words : List Word
  deriving DecidableEq, Repr

/-- A network loaded under a NET_ID, with the facts of its header (R295 to R298). -/
structure Network where
  netId : Nat
  /-- the image buffer at the load: first word key and words -/
  base : Nat
  size : Nat
  tiling : Nat
  layers : Nat
  layersAt : Nat
  weightsAt : Nat
  postAt : Nat
  deriving DecidableEq, Repr

/-- A priority map of a service: in force, and waiting for the next step 1 (R489). -/
structure PriorityMap where
  service : Nat
  current : Option (BitVec 24)
  next : Option (BitVec 24)
  deriving DecidableEq, Repr

/-- A job in its slot (R65, R93, R476). -/
structure Job where
  id : BitVec 16
  state : JobState
  reproducible : Bool
  seed0 : BitVec 64
  seed1 : BitVec 64
  digestKey : BitVec 64
  stepBase : BitVec 32
  launch : Word
  buffers : List Buffer
  lists : List InstrList
  blocks : List Block
  networks : List Network
  priorities : List PriorityMap
  /-- launch count of an ARMED job; 0 starts at once (R57) -/
  launchAt : Nat
  /-- triggering numbers taken since JOB_ARM: service, list, next number (R92) -/
  triggered : List (Nat × Nat × BitVec 32)
  deriving DecidableEq, Repr

/-- The service that holds a claim (R86): its JOB_ID, 0xFFFF for a device-level block, and its SERVICE_ID. -/
structure OwnerRef where
  job : BitVec 16
  service : Nat
  deriving DecidableEq, Repr

/-- A claim of a resource (R86): RESOURCE_ID and owner. -/
structure Claim where
  resource : Nat
  owner : OwnerRef
  deriving DecidableEq, Repr

/-! ## Shuttle (file 04) -/

/-- A control cycle: the firing of the control-cycle entry (R15, R94, R203), and whether its step 1 has come (R18). -/
structure Cycle where
  tag : Reg
  gFire : Nat
  key : LinePos
  stepped : Bool := false
  /-- bit n: the release deadline of channel n has passed for it (R21, R112) -/
  passed : BitVec 16 := 0
  deriving DecidableEq, Repr

/-- A sync object declared by the armed job (R95 to R97): its record as copied from the sync table, and its count. -/
structure SyncObj where
  obj : Nat
  service : Nat
  count : Nat
  threshold : Nat
  list : Nat
  trigger : Bool
  deriving DecidableEq, Repr

/-- The delay-list firing that sent a signal: KEY, Global Counter value of the tick, and LATE flag (R50). -/
structure Firing where
  key : LinePos
  gcnt : Nat
  late : Bool
  deriving DecidableEq, Repr

/-- A signal that waits at the Shuttle; its tag and sheet pass to a list that it triggers (R94, R97, R339). -/
structure SignalMsg where
  obj : Nat
  inc : Nat
  tag : Reg
  sheet : Option Reg
  golden : Bool
  /-- the delay-list firing that sent it (R50, R94) -/
  firing : Option Firing
  /-- the SIGNAL item that completes when it is applied (R101) -/
  item : Option Nat
  deriving DecidableEq, Repr

/-- A triggering that waits for admission (R92, R94). -/
structure Triggering where
  service : Nat
  list : Nat
  tag : Reg
  sheet : Option Reg
  golden : Bool
  deriving DecidableEq, Repr

/-- Where a work item is (R91).  `kept`: complete at an engine that keeps the completion (R110). -/
inductive ItemPhase where
  | waiting | released | ready | running | kept | parked
  deriving DecidableEq, Repr

/-- The ready or matching entry that an item holds (R108 to R110). -/
inductive Pool where
  | none | generalReady | shareReady | generalMatch | shareMatch
  deriving DecidableEq, Repr

/-- What an engine reports for an item (R88). -/
structure Result where
  status : Status
  reason : BitVec 16
  detailA : BitVec 16
  detailB : BitVec 16
  digest : BitVec 64
  deriving DecidableEq, Repr

/-- An epoch at its commit (R150, R154, R167). -/
structure Epoch where
  number : Reg
  t0 : Nat
  forced : BitVec 16
  rebuild : Bool
  stale : Bool
  /-- which of the two logs holds it, and its entries -/
  log : Bool
  fill : Nat
  deriving DecidableEq, Repr

/-- A work item (R91). -/
structure Item where
  id : Nat
  slot : Nat
  jobId : BitVec 16
  service : Nat
  list : Nat
  index : Nat
  entry : BitVec 512
  /-- triggering number (R92) and cycle tag (R94) -/
  trig : BitVec 32
  tag : Reg
  sheet : Option Reg
  golden : Bool
  priority : Nat
  phase : ItemPhase
  pool : Pool
  /-- the sync condition has been met (R98) -/
  synced : Bool
  /-- Global Counter at admission and the wait limit in µs (R102) -/
  admitted : Nat
  limit : Nat
  /-- sequence number in its flow (R106) -/
  flowSeq : Nat
  /-- order of becoming READY (R103), and of becoming WAITING or RELEASED -/
  order : Nat
  engine : Option Engine
  /-- Global Counter at which the engine took the item -/
  started : Nat
  /-- the epoch whose read gate was open then, which a SEARCH or DARN item names (R208) -/
  epoch : Option Epoch := none
  result : Option Result
  /-- Global Counter at its completion (R88); meaningful once it has completed -/
  ended : BitVec 64 := 0
  /-- the abort that is recorded in place of the engine's result (R112) -/
  aborted : Option Result := none
  deriving DecidableEq, Repr

/-- An ordered flow: next number to give and next to release (R106, R107). -/
structure Flow where
  flow : Nat
  next : Nat
  release : Nat
  deriving DecidableEq, Repr

/-- The Shuttle. -/
structure Shuttle where
  items : List Item := []
  nextItem : Nat := 0
  nextOrder : Nat := 0
  syncs : List SyncObj := []
  signals : List SignalMsg := []
  triggerings : List Triggering := []
  flows : List Flow := []
  /-- pending GETs, longest waiting first (R104) -/
  gets : List Engine := []
  /-- the kernel that each Work Core holds (R105) -/
  kernels : List (Nat × Reg) := []
  /-- the Tensor item that gathers panels, and the panels held or used by Tensor items (R288) -/
  panels : List (Nat × Nat) := []
  /-- recent control cycles, newest first -/
  cycles : List Cycle := []
  /-- control-cycle firings counted since JOB_ARM (R365) -/
  firings : Nat := 0
  peakReady : Nat := 0
  peakMatch : Nat := 0
  refusedReady : Nat := 0
  refusedMatch : Nat := 0
  refusedFlow : Nat := 0
  refusedHost : Nat := 0
  timeouts : Nat := 0
  deferred : Nat := 0
  keptCount : Nat := 0
  dispatched : Nat := 0
  lastRefusal : BitVec 16 := 0
  deriving DecidableEq, Repr

/-! ## Pattern, occupancy, Tracer (files 05 to 07) -/

/-- The header facts of the active Pattern (R136); `slotBase` is the word key of its image, `areaBase` that of the BSP area. -/
structure Pattern where
  slot : Nat
  sig : BitVec 64
  nodes : Nat
  edges : Nat
  primitives : Nat
  partitions : Nat
  pitch : Nat
  originX : Int
  originY : Int
  originZ : Int
  fwdTotal : Nat
  revTotal : Nat
  partAt : Nat
  nodeAt : Nat
  edgeAt : Nat
  primAt : Nat
  fwdDirAt : Nat
  fwdAt : Nat
  revDirAt : Nat
  revAt : Nat
  deriving DecidableEq, Repr

/-- Pattern status (TRC_PATTERN_*). -/
structure PatternCtl where
  active : Option Pattern := none
  installsOk : Nat := 0
  installsFailed : Nat := 0
  lastResult : BitVec 16 := 0
  deriving DecidableEq, Repr

/-- A DELTA_INJECT that is half done: its item, its parameter word, the records or mask words done, and whether a word it loaded carries poison. -/
structure Injection where
  item : Nat
  param : Word
  next : Nat
  bad : Bool
  deriving DecidableEq, Repr

/-- The occupancy service (file 06).  The layers lie in the memory of OCC_STORE and OCC_BITMAP (R151). -/
structure Occupancy where
  /-- an OCCUPANCY service of the armed job has initialised the layers (R169) -/
  live : Bool := false
  /-- the open epoch's number, log, entries and REBUILD mark (R165, R167) -/
  openEpoch : Reg := 0
  openLog : Bool := false
  openFill : Nat := 0
  openRebuild : Bool := false
  /-- slice boundaries since the open epoch opened (R165) -/
  boundaries : Nat := 0
  /-- the slice up to which the intake has done R166 -/
  tc : Nat := 0
  /-- newest committed epoch, and whether it has been applied -/
  committed : Option Epoch := none
  committedApplied : Bool := false
  /-- the epoch applied to OCC_BITMAP -/
  applied : Option Epoch := none
  /-- a committed epoch was superseded since the last apply (R190) -/
  superseded : Bool := false
  /-- markers of the 32 PRED slots: slice and RUN_START (R152) -/
  markers : List (Option (Nat × Nat)) := List.replicate 32 none
  /-- Global Counter of the last observation mask accepted from each port, and its timeout flag (R170) -/
  lastObs : List Nat := [0, 0, 0, 0]
  obsTimeout : BitVec 4 := 0
  /-- Global Counter of the last record from each peer, its timeout flag, and the forcing that only FULL_STATE ends (R172) -/
  lastPeer : List Nat := List.replicate 7 0
  peerTimeout : BitVec 7 := 0
  peerForced : BitVec 7 := 0
  /-- TRC_OCC_DROPS, TRC_OCC_LATE, TRC_OCC_OUTSIDE -/
  drops : Nat := 0
  lateRecords : Nat := 0
  lateMasks : Nat := 0
  outside : Nat := 0
  /-- word keys of the export masks of the most recent DELTA_BROADCAST (R466) -/
  exportAt : Option Nat := none
  /-- words of that operand: the masks of the links beyond it are empty -/
  exportWords : Nat := 0
  /-- the DELTA_INJECT that a commit or a slice boundary has met half done (R164) -/
  injecting : Option Injection := none
  /-- the model's own: the operation in progress has loaded a layer, log or bitmap word that carries poison (R399) -/
  loadBad : Bool := false
  deriving DecidableEq, Repr

/-- A queued recount: edge, slot, and the Global Counter at which it was queued (R184). -/
structure Recount where
  edge : Nat
  slot : Nat
  since : Nat
  deriving DecidableEq, Repr

/-- The Tracer (file 07).  The edge records lie in the edge-state memory. -/
structure Tracer where
  /-- the epoch whose read gate is open (R188) -/
  gate : Option Reg := none
  /-- TRC_APPLIED_EPOCH: the epoch whose gate was opened last -/
  appliedEpoch : Reg := 0
  /-- VALID[s] (R185) -/
  valid : BitVec 16 := 0
  /-- Global Counter at which slot s was rotated last -/
  rotatedAt : List Nat := List.replicate 16 0
  /-- queued rotation counts, in order (R185) -/
  rotations : List Nat := []
  /-- Global Counter at which a full count started (R186) -/
  fullCount : Option Nat := none
  /-- the next apply is the first after JOB_ARM (R186) -/
  firstApply : Bool := false
  recounts : List Recount := []
  /-- OVERFLOW flag, with the moment it began (R184) -/
  overflow : Option Nat := none
  fault : Bool := false
  overdue : Bool := false
  lastDuration : Nat := 0
  adds : Nat := 0
  saturations : Nat := 0
  underflows : Nat := 0
  rewrites : Nat := 0
  recountsDone : Nat := 0
  /-- the model's own: the groups of banks whose records the operation in progress has read, bit n: banks 8n to 8n + 7 (R178, R371) -/
  readGroups : BitVec 8 := 0
  deriving DecidableEq, Repr

/-! ## Channels, search, solver, tensor, selection (files 08 to 12) -/

/-- A plan: the 81 words of its trajectory record (R273), its g_base, the line position of its start (R203), its cycle tag, and
the σ at which the covered part begins where it begins within an edge (R262), else 0. -/
structure Plan where
  record : List Word
  gBase : Nat
  start : LinePos
  tag : Reg
  sigma0 : Nat
  deriving DecidableEq, Repr

/-- What a channel does from some moment on (R204). -/
inductive Motion where
  | restNode (node : Nat)
  | restEdge (edge sigma : Nat)
  | go (p : Plan)
  | stop (p : Plan)
  deriving DecidableEq, Repr

/-- A motion and the Global Counter at which it becomes active (R218, R220). -/
structure Segment where
  start : Nat
  motion : Motion
  deriving DecidableEq, Repr

/-- A planning channel. -/
structure Channel where
  goal : Nat := 0
  /-- a goal that takes effect at the next step 1 (R20) -/
  pendingGoal : Option Nat := none
  /-- the cycle in which the goal in force took effect (R212) -/
  goalTag : Option Reg := none
  /-- the active trajectory, newest motion first: the private contents of CH_STATE (R204) -/
  history : List Segment := [⟨0, .restNode 0⟩]
  /-- uses of the search scratch since JOB_ARM (R222) -/
  scratchUses : Nat := 0
  /-- cycle tags released since JOB_ARM, newest first (R360), and whether the latest release was a hold (R368) -/
  released : List Reg := []
  lastHold : Bool := false
  /-- control-cycle firings at which a STITCH of the channel completed DISAGREE (R365) -/
  disagreeAt : List Nat := []
  /-- reason of the latest failed STITCH or SEARCH and its cycle, for the hold that follows (R221) -/
  holdReason : Option (Reg × BitVec 16) := none
  /-- the channel counts as enabled in the armed job -/
  enabled : Bool := false
  deriving DecidableEq, Repr

/-- Counters of the PSE and the Darning unit. -/
structure SearchCtl where
  searches : Nat := 0
  expansions : Nat := 0
  noPath : Nat := 0
  prefixBlocked : Nat := 0
  budget : Nat := 0
  labelsFull : Nat := 0
  darned : Nat := 0
  gaveUp : Nat := 0
  dropped : Nat := 0
  holds : Nat := 0
  deriving DecidableEq, Repr

/-- The factor of a slot (R238, R239). -/
structure Factor where
  l : List Int
  d : List Int
  r : List Int
  tiny : Nat
  zero : Nat
  firstReg : Option Nat
  overflow : Bool
  deriving DecidableEq, Repr

/-- One iterate with its residuals (R240 to R245). -/
structure Iterate where
  number : Nat
  x : List Int
  z : List Int
  y : List Int
  resPrim : Int
  resDual : Int
  overflow : Bool
  deriving DecidableEq, Repr

/-- What a resumable solve keeps (R247). -/
structure SolveState where
  last : Iterate
  /-- y of the iterate before the last, once there is one (R243) -/
  prevY : Option (List Int)
  /-- iterate 0, returned where every iterate is marked OVERFLOW (R245) -/
  start : Iterate
  best : Option Iterate
  firstOvf : Option Nat
  deriving DecidableEq, Repr

/-- The private contents of a slot buffer (R235). -/
structure SolverSlot where
  /-- word key at which the slot buffer begins, and the words that the structure takes of it (R235) -/
  at_ : Nat
  words : Nat := 32
  /-- of these, the words before those that hold nothing but the factor (R238; assumption log 94) -/
  fixed : Nat := 32
  kind : Nat
  n : Nat
  m : Nat
  fK : Nat
  fL : Nat
  fR : Nat
  fV : Nat
  fJ : Nat
  fW : Nat
  sigmaExp : Int
  macs : Nat
  height : Nat
  sig : BitVec 64
  perm : List Nat
  rhoExp : List Int
  pPtr : List Nat
  pIdx : List Nat
  aPtr : List Nat
  aIdx : List Nat
  lPtr : List Nat
  lIdx : List Nat
  p : List Int
  a : List Int
  q : List Int
  l : List Int
  u : List Int
  factor : Option Factor
  /-- the last iterate returned, and whether the slot is resumable -/
  returned : Option Iterate
  resume : Option SolveState
  /-- least-squares accumulators -/
  nAcc : List Int
  cAcc : List Int
  deriving DecidableEq, Repr

/-- Counters of the Solver Engine and Ease. -/
structure SolverCtl where
  /-- the private contents of the slot buffers -/
  slots : List SolverSlot := []
  /-- bit n: the last solve on SLn ended by the item budget -/
  resumable : BitVec 8 := 0
  solves : Nat := 0
  deadlineBest : Nat := 0
  iterationCap : Nat := 0
  tinyPivots : Nat := 0
  zeroPivots : Nat := 0
  overflows : Nat := 0
  noValid : Nat := 0
  warmOk : Nat := 0
  warmRejected : Nat := 0
  infeasible : Nat := 0
  busyRefused : Nat := 0
  iterations : Nat := 0
  loadsOk : Nat := 0
  loadsRefused : Nat := 0
  easeItems : Nat := 0
  easeValid : Nat := 0
  easeInvalid : Nat := 0
  /-- records by cause 1 to 8 of R273 -/
  easeCause : List Nat := List.replicate 9 0
  stopTries : Nat := 0
  deadlineValid : Nat := 0
  deriving DecidableEq, Repr

/-- The Tensor Engine. -/
structure TensorCtl where
  /-- bit n: TPn is excluded under R293 until a slice passes -/
  excluded : BitVec 16 := 0
  items : Nat := 0
  macs : Nat := 0
  busy : Nat := 0
  residueFails : Nat := 0
  duplicateFails : Nat := 0
  lastFail : Reg := 0
  accSat : Nat := 0
  nonfinite : Nat := 0
  deriving DecidableEq, Repr

/-- The Top-k Selector. -/
structure SelectCtl where
  items : Nat := 0
  ties : Nat := 0
  fewer : Nat := 0
  duplicates : Nat := 0
  disagrees : Nat := 0
  nans : Nat := 0
  entries : Nat := 0
  lastDisagree : Reg := 0xFFFFFFFF
  disagreeSeen : Bool := false
  sumSatSeen : Bool := false
  /-- word keys of the kept lists whose TOPK or TOPK_MERGE completed DISAGREE (R357) -/
  disagreed : List Nat := []
  deriving DecidableEq, Repr

/-! ## Frames and the sheet loop (file 13) -/

/-- A frame buffer (R328, R329). -/
structure FrameBuf where
  state : BufState := .free
  mFs : LinePos := 0
  capture : BitVec 64 := 0
  number : BitVec 16 := 0
  sheet : Reg := 0
  noSheet : Bool := false
  skip : Bool := false
  /-- order of Frame Starts -/
  order : Nat := 0
  deriving DecidableEq, Repr

/-- A band of a frame as its words arrive (R330): words so far, digest, first word, and whether all words are equal. -/
structure Band where
  count : Nat := 0
  digest : BitVec 64 := 0
  first : Word := 0
  constant : Bool := true
  deriving DecidableEq, Repr

/-- The frame in progress on a port: its buffer, or none when it is discarded. -/
structure FrameNow where
  buffer : Option Nat
  start : Nat
  number : BitVec 16
  lines : Nat := 0
  bands : List Band := List.replicate 64 {}
  /-- a check has discarded the frame -/
  discarded : Bool := false
  /-- the frame has outlasted FRAME_MAX -/
  expired : Bool := false
  deriving DecidableEq, Repr

/-- A frame that has ended and waits for the FFM (R333). -/
structure EndedFrame where
  buffer : Nat
  bands : List Band
  deriving DecidableEq, Repr

/-- One Frame Intake port. -/
structure FiPort where
  bufs : List FrameBuf := List.replicate 4 {}
  now : Option FrameNow := none
  /-- frames that have ended and wait for the FFM, oldest first (R333) -/
  ended : List EndedFrame := []
  nextOrder : Nat := 0
  /-- number and bands of the last accepted frame (R330 to R332) -/
  refNumber : Option (BitVec 16) := none
  refBands : List Band := []
  /-- the FRAME_TAKE that waits, and the Global Counter of its expiry (R334) -/
  take : Option (Nat × Nat) := none
  accepted : Nat := 0
  dropped : Nat := 0
  crcErrors : Nat := 0
  sizeErrors : Nat := 0
  maxExpiries : Nat := 0
  strangers : Nat := 0
  headerCorrected : Nat := 0
  frozen : Nat := 0
  repeated : Nat := 0
  skips : Nat := 0
  stale : Nat := 0
  deriving DecidableEq, Repr

/-- What is known against a sheet before its release (R339, R341). -/
structure SheetMark where
  sheet : Reg
  faulted : Bool
  poisoned : Bool
  noFrame : Bool
  deriving DecidableEq, Repr

/-- The sheet loop. -/
structure SheetLoop where
  /-- correction slot: sheet and record words (R340) -/
  records : List (Reg × List Word) := []
  lastGood : List Word := []
  marks : List SheetMark := []
  /-- count of releases since arm -/
  releases : Nat := 0
  sheetsSince : Nat := 0
  frozen : Bool := false
  /-- a golden pass is in progress, and whether one of its items failed (R344, R345) -/
  pass : Bool := false
  passFailed : Bool := false
  lastSheet : Reg := 0
  lastCause : Nat := 0
  heldOver : Nat := 0
  lateRecords : Nat := 0
  deferrals : Nat := 0
  passes : Nat := 0
  fails : Nat := 0
  /-- the latest sheet whose release instant has passed -/
  released : Option Reg := none
  deriving DecidableEq, Repr

/-- Frame Intake as a whole. -/
structure FrameCtl where
  ports : List FiPort := List.replicate 4 {}
  lastReject : BitVec 16 := 0
  deriving DecidableEq, Repr

/-! ## Seam and Safety Manager (file 14) -/

/-- A STITCH whose walk waits at a candidate that rows 1 and 2 of R358 leave to the re-read: its item, the candidates examined and dropped, those
left, as position and CAND_ID, the waiting one first, and that one's trajectory record and verdict (R218, R371). -/
structure WaitingWalk where
  item : Nat
  examined : Nat
  dropped : Nat
  left : List (Nat × Nat)
  record : List Word
  verdict : Word
  deriving DecidableEq, Repr

/-- A slice that runs, with its start. -/
structure RunningSlice where
  slice : TestSlice
  start : Nat
  deriving DecidableEq, Repr

/-- The Seam and the Safety Manager. -/
structure Safety where
  stitches : Nat := 0
  dropsEarly : Nat := 0
  dropsLate : Nat := 0
  walks0901 : Nat := 0
  walks0902 : Nat := 0
  lastDisagree : Reg := 0
  /-- the walk of the running STITCH, while it waits (R218, R371) -/
  walk : Option WaitingWalk := none
  verdictBlocked : Nat := 0
  verdictBudget : Nat := 0
  /-- latched causes of R362; INIT after reset -/
  latched : BitVec 9 := 1
  lastCause : BitVec 16 := 0
  /-- the first full self-test coverage after wake is complete (cause INIT) -/
  covered : Bool := false
  /-- SAFE_REQ is asserted after its filter, or its release has not been accepted yet (R362, R367) -/
  safeReq : Bool := false
  /-- Global Counter of the latest assertion, 0 for one that dates from wake (R367) -/
  safeReqAt : Nat := 0
  /-- the pin has been accepted as released since wake (R367) -/
  safeReqSeen : Bool := false
  /-- coverage age beyond COVERAGE_LIMIT at the latest evaluation (R372) -/
  overdue : Bool := false
  /-- consecutive readings that differ from the level driven (R366) -/
  readbackMiss : Nat := 0
  /-- OUTPUT_READBACK has latched since wake (SM_STATE.READBACK_FAIL) -/
  readbackFailed : Bool := false
  /-- a slice failed so that SELFTEST_FAIL stands until wake -/
  testFailed : Bool := false
  tampered : Bool := false
  holdCount : Nat := 0
  /-- last pass of each slice since wake (R372) -/
  passes : List (TestSlice × Nat) := []
  running : List RunningSlice := []
  /-- instances excluded after a failed slice (R373) -/
  excluded : List (TestClass × Nat) := []
  /-- Work Cores excluded because their kernel reload met an uncorrectable word (R400) -/
  excludedCores : List Nat := []
  deferred : Nat := 0
  /-- slices counted as deferred, each with the end of its window (R371) -/
  deferredNow : List (TestSlice × Nat) := []
  lastFail : BitVec 16 := 0
  rounds : Nat := 0
  /-- Global Counter at which the current round began -/
  roundStart : Nat := 0
  deriving DecidableEq, Repr

/-! ## Field Ports and Peer Links (file 17) -/

/-- A release (R359) handed to a Field Port: the setpoint payload formed from it (R450), and what R351 needs to place the channel
later (R457): the motions of the channel and the partition. -/
structure Release where
  channel : Nat
  words : List Word
  payload : List Byte
  history : List Segment
  partition : Nat
  deriving DecidableEq, Repr

/-- A frame that waits in a port's queue (R451). -/
inductive FpFrame where
  | setpoint (rel : Release)
  | aux (node : Nat) (payload : List Byte)
  | correction (record : List Word) (next : Nat)
  deriving DecidableEq, Repr

/-- Reception state of a node (R456, R457). -/
structure FpNode where
  lastSeq : Option (BitVec 16) := none
  status : Nat := 0
  stale : Bool := false
  deviation : Bool := false
  /-- Global Counter of the last accepted frame, or of the enabling of the block -/
  lastAt : Nat := 0
  /-- the frame of a SETPOINT sent to the node last -/
  lastSent : Option Release := none
  /-- SEQ of the stream to the node -/
  txSeq : BitVec 16 := 1
  deriving DecidableEq, Repr

/-- One Field Port. -/
structure FieldPort where
  queue : List FpFrame := []
  /-- releases that wait for the other channels of their cycle under BATCH (R451) -/
  batch : List Release := []
  timeDue : Bool := false
  lastTime : Nat := 0
  timeSeq : BitVec 16 := 1
  plcaOk : Bool := false
  nodes : List FpNode := List.replicate 8 {}
  sent : Nat := 0
  fragments : Nat := 0
  accepted : Nat := 0
  foreign : Nat := 0
  late : Nat := 0
  superseded : Nat := 0
  excess : Nat := 0
  fcsErrors : Nat := 0
  unknownSource : Nat := 0
  payloadCrc : Nat := 0
  range : Nat := 0
  sequence : Nat := 0
  collisions : Nat := 0
  plcaLosses : Nat := 0
  /-- the frames sent in the latest opportunity, as bytes on the wire -/
  wire : List (List Byte) := []
  deriving DecidableEq, Repr

/-- A candidate list received and held (R469). -/
structure HeldList where
  tag : Reg
  list : List Word
  deriving DecidableEq, Repr

/-- What a peer reported in CONFIG (R467). -/
structure PeerConfig where
  slicePeriod : Nat
  slicePhase : Nat
  pitch : Nat
  sig : BitVec 64
  deriving DecidableEq, Repr

/-- A flit of the transmitter: VC, START, END and payload (R460). -/
structure TxFlit where
  vc : Nat
  start : Bool
  last : Bool
  payload : List Byte
  /-- CREDITS of the flit as it was first sent, for each VC; a replay carries them again -/
  returned : List Nat := [0, 0, 0, 0]
  deriving DecidableEq, Repr

/-- One Peer Link. -/
structure PeerLink where
  up : Bool := false
  /-- Global Counter at which the link went down; training is retried at whole multiples of 10 ms from there (R461) -/
  downAt : Nat := 0
  /-- position reported by the far end at the latest training -/
  farPos : Nat := 0
  /-- flits that wait for a credit, oldest first, for each VC (R462) -/
  waiting : List (List TxFlit) := [[], [], [], []]
  /-- Global Counter since which a VC has waited for credit -/
  waitSince : List Nat := [0, 0, 0, 0]
  credits : List Nat := [8, 64, 256, 64]
  /-- the last 128 flits sent, oldest first, with their FSEQ (R461) -/
  replay : List (BitVec 12 × TxFlit) := []
  txSeq : BitVec 12 := 0
  rxSeq : BitVec 12 := 0
  /-- NAK to send, and the FSEQ and number of successive NAKs received -/
  nakOut : Bool := false
  nakSeq : BitVec 12 := 0
  nakCount : Nat := 0
  retrainFails : Nat := 0
  /-- the flit sent last, as its 256 bytes on the wire (R460) -/
  lastFlit : List Byte := []
  /-- payload bytes of the message being received on each VC -/
  partialMsg : List (Option (List Byte)) := [none, none, none, none]
  lineCount : BitVec 16 := 0
  /-- the rest of a message that is refused already is still arriving, for each VC (R464) -/
  refusing : List Bool := [false, false, false, false]
  /-- flits freed since the last credit return, for each VC -/
  freed : List Nat := [0, 0, 0, 0]
  /-- flits of VC 1 that hold a CAND that is arriving, and those that hold complete ones (R462, R469) -/
  candPart : Nat := 0
  candFlits : Nat := 0
  held : List HeldList := []
  config : Option PeerConfig := none
  txFlits : Nat := 0
  rxFlits : Nat := 0
  crcErrors : Nat := 0
  malformed : Nat := 0
  discarded : Nat := 0
  replays : Nat := 0
  retrains : Nat := 0
  deriving DecidableEq, Repr

/-- A CAND_GATHER that waits (R469). -/
structure Gather where
  item : Nat
  tag : Reg
  channel : Nat
  links : List Nat
  missing : List Nat
  discarded : Nat
  limit : Nat
  digest : Nat
  deriving DecidableEq, Repr

/-- The Peer Links as a whole. -/
structure PeerCtl where
  links : List PeerLink := List.replicate 7 {}
  gathers : List Gather := []
  /-- channel and tag of the gathers already run (R469) -/
  ranGathers : List (Nat × Reg) := []
  deriving DecidableEq, Repr

/-! ## Life cycle, fuses, tamper (file 20) -/

/-- What a fuse burn in progress writes (R505 to R508). -/
inductive BurnTarget where
  | lifeCycle (next : LifeCycle)
  | fwKey (digest : BitVec 512)
  | patternKey (slot : Nat) (digest : BitVec 512)
  | svn (value : Nat)
  deriving DecidableEq, Repr

/-- A fuse burn in progress, the mailbox command that waits for it unless a watchdog cut that off (R435), and the Global Counter at which it ends. -/
structure Burn where
  mbx : Option Nat
  target : BurnTarget
  endAt : Nat
  deriving DecidableEq, Repr

/-- The Fuse Map (R505). -/
structure FuseMap where
  /-- the code of R507 as the fuses read: 1, MANUFACTURE -/
  lifeCode : BitVec 3 := 1
  serial : BitVec 64 := 0
  stepping : BitVec 4 := 0
  secret : BitVec 256 := 0
  fwKey : Option (BitVec 512) := none
  returnKey : Option (BitVec 512) := none
  patternKeys : List (Option (BitVec 512)) := [none, none, none, none]
  svnMin : Nat := 0
  factoryRepairs : List Repair := []
  fieldRepairs : List Repair := []
  deriving DecidableEq, Repr

/-- The life-cycle controller and what lies in the VDD_AON domain. -/
structure Lcc where
  fuses : FuseMap := {}
  /-- commit queue (R412) -/
  commitQueue : List Repair := []
  /-- LCC_SCRATCH -/
  scratch : Reg := 0
  /-- the identity key is in the Thimble -/
  identity : Bool := false
  /-- LCC_TAMPER source bits and event count -/
  tamper : BitVec 4 := 0
  tamperEvents : Nat := 0
  tamperArmed : Bool := false
  wipeRunning : Bool := false
  burn : Option Burn := none
  /-- the transition that waits for its Thimble wipe: the mailbox of its LIFECYCLE_SET, unless cut off, and the state burned (R435, R508) -/
  transition : Option (Option Nat × LifeCycle) := none
  idleEntries : Nat := 0
  /-- LCC_TEMP and LCC_POWER_EST as last refreshed (R492) -/
  temp : Reg := 0x80008000
  powerEst : Reg := 0
  /-- Global Counter at which the power switches open after POWER_STATE Off (R501) -/
  offAt : Option Nat := none
  /-- the device woke into factory test (R500) -/
  factoryTest : Bool := false
  deriving DecidableEq, Repr

/-- A JOB_ARM whose check has passed and which waits for the CONFIG of its peers (R467): mailbox, job slot, launch count, the Global Counter at
which it began to wait, and the sync records that the Shuttle copied (R96). -/
structure Arming where
  mbx : Nat
  slot : Nat
  launch : Nat
  since : Nat
  syncs : List SyncObj
  deriving DecidableEq, Repr

/-! ## The whole state -/

/-- The state of the block. -/
structure State where
  grade : Grade := .ft9_64I
  power : PowerState := .off
  /-- PORST_N is held low (R499, R500) -/
  porstLow : Bool := true
  /-- board position read from BPOS0 to BPOS2 at wake (R459) -/
  boardPos : Nat := 0
  /-- the Global Counter (R53) -/
  gcnt : BitVec 64 := 0
  /-- every memory of the device, by word key (Machine/Memory.lean): stored word, or none where the contents are undefined -/
  mem : Memory := []
  memCtl : MemCtl := {}
  me : MoveEngines := {}
  mbx : List Mailbox := List.replicate 4 {}
  /-- mailboxes whose command is accepted and not started, in acceptance order (R421) -/
  accepted : List Nat := []
  /-- the SERIAL command that runs across steps: its mailbox (R421) -/
  serialBusy : Option Nat := none
  /-- a JOB_DISARM that completes when its job is DEFINED: its mailbox and job slot (R67) -/
  disarming : Option (Nat × Nat) := none
  /-- a JOB_ARM that waits for the CONFIG of peers (R467) -/
  arming : Option Arming := none
  rings : Rings := {}
  alarms : List AlarmRecord := []
  firstFault : Option FirstFault := none
  link : HostLink := {}
  /-- the latched _HI halves of R8: offset of the _HI register and its value -/
  hiLatches : List (Nat × Reg) := []
  reply : HostReply := {}
  fw : Firmware := {}
  line : Line := {}
  jobs : List (Option Job) := [none, none, none, none]
  devBlocks : List Block := []
  claims : List Claim := []
  shu : Shuttle := {}
  pat : PatternCtl := {}
  occ : Occupancy := {}
  trc : Tracer := {}
  chans : List Channel := List.replicate 16 {}
  pse : SearchCtl := {}
  se : SolverCtl := {}
  te : TensorCtl := {}
  tks : SelectCtl := {}
  fi : FrameCtl := {}
  sheet : SheetLoop := {}
  sm : Safety := {}
  fp : List FieldPort := List.replicate 4 {}
  pl : PeerCtl := {}
  lcc : Lcc := {}
  /-- the model's own counter of free values drawn so far (assumption log 5) -/
  freeCount : Nat := 0
  /-- the model's own: the fault of duplicated or checksummed logic at this ns (assumption log 69) -/
  upset : Option Config.Upset := none
  /-- the model's own: what the firmware has to log at this ns (assumption log 58) -/
  note : Option Config.FirmwareNote := none
  /-- commands that wait, first in first out -/
  pending : List Instr := []
  deriving DecidableEq, Repr

/-- The faults of the block: none.  No command of the spec stops the machine; every error is a completion, an alarm or a counter. -/
inductive Fault where
  deriving DecidableEq, Repr

/-- The refusals of the model. -/
inductive Refusal where
  /-- The command has no meaning in the model yet.  Raised by an arm of `exec` only; safe: the machine stops. -/
  | notModelled (mnemonic : String)
  deriving DecidableEq, Repr

/-- The machine right after reset: every register at the reset value of its table, the device not yet woken (R499, R503). -/
def State.reset : State := {}

end Sys2Proof.Machine
end

