-- ==== Sys2Proof/Machine/Ops.lean ====
section
/-!
DEFINITION. The shared operations below the meanings: bit fields, byte order, saturating counters, list helpers, the mixing
function of R478, alarms (R437) and violations of access rules (R407).
-/

namespace Sys2Proof.Machine

open Sys2Proof

/-! ## Bits, bytes and counters -/

/-- Bits [lo + len - 1 : lo] of a number. -/
def bits (n lo len : Nat) : Nat := (n >>> lo) % 2 ^ len

/-- The two's-complement value of the low `len` bits. -/
def signed (len n : Nat) : Int :=
  if n % 2 ^ len < 2 ^ (len - 1) then (n % 2 ^ len : Nat) else ((n % 2 ^ len : Nat) : Int) - (2 ^ len : Nat)

/-- The low `len` bits of a two's-complement value. -/
def unsigned (len : Nat) (x : Int) : Nat := (x % ((2 ^ len : Nat) : Int)).toNat

/-- A value placed at a bit position: value, low bit, width. -/
def at_ (v lo len : Nat) : Nat := (v % 2 ^ len) <<< lo

/-- A Boolean as a bit. -/
def b2n (b : Bool) : Nat := if b then 1 else 0

/-- A saturating counter of the given maximum (R437 and the register tables). -/
def satAdd (max n k : Nat) : Nat := if n + k ≤ max then n + k else max

/-- The word of a number. -/
def word (n : Nat) : Word := BitVec.ofNat 256 n

/-- Bits of a word. -/
def Word.get (w : Word) (lo len : Nat) : Nat := bits w.toNat lo len

/-- The 32-bit lane `i` of a word. -/
def lane32 (w : Word) (i : Nat) : Nat := bits w.toNat (32 * i) 32

/-- Little-endian bytes of a number (R122). -/
def toBytes (n count : Nat) : List Byte := (List.range count).map fun i => BitVec.ofNat 8 (n >>> (8 * i))

/-- The number that little-endian bytes spell. -/
def ofBytes : List Byte → Nat
  | [] => 0
  | b :: t => b.toNat + 256 * ofBytes t

/-- The 32 bytes of a word. -/
def wordBytes (w : Word) : List Byte := toBytes w.toNat 32

/-- The bytes of successive words. -/
def wordsBytes (ws : List Word) : List Byte := ws.flatMap wordBytes

/-- Words of 32 bytes, the last one filled up with zeros; `n` bounds their number. -/
def bytesWords : Nat → List Byte → List Word
  | 0, _ => []
  | n + 1, bs => if bs.isEmpty then [] else word (ofBytes (bs.take 32)) :: bytesWords n (bs.drop 32)

/-- A number of `len` bits spread over successive words, low word first: bit `lo` of the whole. -/
def spanBits (ws : List Word) (lo len : Nat) : Nat :=
  bits (ofWords ws) lo len
where
  /-- The number that the words spell, low word first. -/
  ofWords : List Word → Nat
    | [] => 0
    | w :: t => w.toNat + 2 ^ 256 * ofWords t

/-- The value that occurs first in the list under a test, with its index. -/
def firstIndex {α : Type} (p : α → Bool) : List α → Nat → Option Nat
  | [], _ => none
  | a :: t, i => if p a then some i else firstIndex p t (i + 1)

/-- Element `i`, or a default. -/
def nth {α : Type} (l : List α) (i : Nat) (d : α) : α := l.getD i d

/-- Change element `i`. -/
def upd {α : Type} (l : List α) (i : Nat) (f : α → α) : List α := l.modify i f

/-- Insert before the first element that `lt` puts behind `a` (stable insertion). -/
def insertBy {α : Type} (lt : α → α → Bool) (a : α) : List α → List α
  | [] => [a]
  | b :: t => if lt a b then a :: b :: t else b :: insertBy lt a t

/-- Stable insertion sort. -/
def sortBy {α : Type} (lt : α → α → Bool) (l : List α) : List α := l.foldl (fun acc a => insertBy lt a acc) []

/-- The element that `lt` puts first; the earliest one on ties. -/
def minBy {α : Type} (lt : α → α → Bool) : List α → Option α
  | [] => none
  | a :: t => some (t.foldl (fun m b => if lt b m then b else m) a)

/-- Floor of a division of integers by a positive number. -/
def fdiv (a : Int) (b : Int) : Int := Int.fdiv a b

/-- Quotient rounded toward plus infinity, for natural numbers; zero divisors give zero. -/
def ceilDiv (a b : Nat) : Nat := (a + b - 1) / b

/-- b^e modulo p, for an exponent of 31 bits. -/
def powMod (p b e : Nat) : Nat := (List.range 31).foldr (fun i acc => acc * acc % p * (if e.testBit i then b else 1) % p) 1

/-! ## The mixing function of R478 -/

/-- Arithmetic modulo 2^64. -/
def m64 (n : Nat) : Nat := n % 18446744073709551616

/-- f of R478. -/
def mixF (x : Nat) : Nat :=
  let x := x ^^^ (x >>> 30)
  let x := m64 (x * 0xBF58476D1CE4E5B9)
  let x := x ^^^ (x >>> 27)
  let x := m64 (x * 0x94D049BB133111EB)
  x ^^^ (x >>> 31)

/-- mix(k, w, i) of R478. -/
def mixWord (k w i : Nat) : Nat :=
  let h := mixF (k ^^^ i)
  let h := mixF (h ^^^ bits w 0 64)
  let h := mixF (h ^^^ bits w 64 64)
  let h := mixF (h ^^^ bits w 128 64)
  mixF (h ^^^ bits w 192 64)

/-- The digest of indexed words; a word with the poison mark is given by none (R479). -/
def digestOf (k : Nat) : List (Nat × Option Word) → Nat
  | [] => 0
  | (i, some w) :: t => m64 (mixWord k w.toNat i + digestOf k t)
  | (i, none) :: t => m64 (mixWord k 0 (m64 (i + 2 ^ 63)) + digestOf k t)

/-! ## Time and position -/

/-- The Global Counter as a number. -/
def State.now (s : State) : Nat := s.gcnt.toNat

/-- The compute die serves commands: it is not Off. -/
def State.awake (s : State) : Bool := s.power != .off

/-! ## Life cycle (R507) -/

/-- The life-cycle codes of R507. -/
def LifeCycle.code : LifeCycle → Nat
  | .blank => 0 | .manufacture => 1 | .provisioned => 2 | .field => 3 | .returned => 4 | .scrapped => 5

/-- The life-cycle state that a code read from the Fuse Map stands for: 6 and 7 are treated as SCRAPPED (R507). -/
def LifeCycle.ofCode : Nat → LifeCycle
  | 0 => .blank | 1 => .manufacture | 2 => .provisioned | 3 => .field | 4 => .returned | _ => .scrapped

/-- The life-cycle state of a Fuse Map. -/
def FuseMap.lifeCycle (f : FuseMap) : LifeCycle := LifeCycle.ofCode f.lifeCode.toNat

/-- A Fuse Map with a life-cycle state burned. -/
def FuseMap.withLife (f : FuseMap) (c : LifeCycle) : FuseMap := { f with lifeCode := BitVec.ofNat 3 c.code }

/-! ## Refusals and completions -/

/-- How a check or an item fails: status, reason, and the details of its completion record (R88). -/
structure Fail where
  status : Status := .refused
  reason : Nat
  detailA : Nat := 0
  detailB : Nat := 0
  entry : Nat := 0xFFFF
  deriving DecidableEq, Repr

/-- A check that gives a value or fails. -/
abbrev Check (α : Type) := Except Fail α

/-- Refuse with a reason unless the condition holds. -/
def need (c : Bool) (reason : Nat) (a : Nat := 0) (b : Nat := 0) : Check Unit :=
  if c then .ok () else .error { reason := reason, detailA := a, detailB := b }

/-- A length or count field of `len` bits: the all-ones value is reserved and zero is refused (R80). -/
def countOk (len v : Nat) : Check Unit := do
  need (v != 2 ^ len - 1) 0x0107
  need (v != 0) 0x0108

/-- Refuse with a reason. -/
def refuse {α : Type} (reason : Nat) (a : Nat := 0) (b : Nat := 0) : Check α :=
  .error { reason := reason, detailA := a, detailB := b }

/-- The value of an option, or a refusal. -/
def needSome {α : Type} (o : Option α) (reason : Nat) (a : Nat := 0) (b : Nat := 0) : Check α :=
  match o with
  | some v => .ok v
  | none => refuse reason a b

/-- Run a check over a list, in order. -/
def eachCheck {α : Type} (f : α → Check Unit) : List α → Check Unit
  | [] => .ok ()
  | a :: t => match f a with
    | .ok _ => eachCheck f t
    | .error e => .error e

/-- The code of a status (R88). -/
def Status.code : Status → Nat
  | .ok => 0 | .refused => 1 | .timeout => 2 | .poisoned => 3
  | .deadlineBest => 4 | .noFreshPath => 5 | .disagree => 6 | .aborted => 7

/-! ## Interrupt vectors and alarms -/

/-- A vector becomes due (R430). -/
def dueVector (v : Nat) (s : State) : State :=
  { s with link.vectors := upd s.link.vectors v fun x => { x with due := true } }

/-- The alarm codes in class order (R436). -/
def alarmCodes : List Nat :=
  [0x0308, 0x0309, 0x0601, 0x0801, 0x0802, 0x0803, 0x0806, 0x0807, 0x0808, 0x0901, 0x0902, 0x0903, 0x0904, 0x0905,
   0x0A01, 0x0A06, 0x0A07, 0x0B04, 0x0B06, 0x0B10, 0x0B11, 0x0B13, 0x0B20, 0x0B40, 0x0B41, 0x0B42, 0x0B43, 0x0B44,
   0x0B45, 0x0B46, 0x0B49, 0x0B4A, 0x0B4B, 0x0B4D, 0x0C04, 0x0C06]

/-- The class of an alarm code; 0xFF, never set, for any other code. -/
def alarmClass (code : Nat) : Nat := (firstIndex (· == code) alarmCodes 0).getD 0xFF

/-- The record of a class, when it is sticky. -/
def State.alarm? (s : State) (cls : Nat) : Option AlarmRecord := s.alarms.find? (·.cls == cls)

/-- An occurrence of an alarm (R437). -/
def raiseAlarm (code : Nat) (a b : Nat) (s : State) : State :=
  let cls := alarmClass code
  let da := BitVec.ofNat 16 a
  let db := BitVec.ofNat 16 b
  let s : State := match s.alarm? cls with
    | some _ =>
      { s with alarms := s.alarms.map fun r => if r.cls == cls then { r with count := satAdd 65535 r.count 1 } else r }
    | none =>
      let r : AlarmRecord := { cls := cls, count := 1, gcnt := s.gcnt, lpos := s.line.m, detailA := da, detailB := db }
      dueVector 3 { s with alarms := insertBy (fun x y => x.cls < y.cls) r s.alarms }
  match s.firstFault with
  | some _ => s
  | none => { s with firstFault := some { cls := cls, gcnt := s.gcnt, lpos := s.line.m, detailA := da, detailB := db } }

/-! ## The violation log (R407, R495) -/

/-- A violation of access rules by a requester; `narrow` marks a dropped narrow write (R404). -/
def violate (requester addr : Nat) (register write narrow : Bool) (s : State) : State :=
  let s := { s with memCtl.violations := upd s.memCtl.violations requester fun (v, n) =>
    if narrow then (v, satAdd 65535 n 1) else (satAdd 65535 v 1, n) }
  match s.memCtl.firstViolation with
  | some _ => s
  | none =>
    let v : FirstViolation := { addr := addr, requester := requester, register := register, write := write, narrow := narrow }
    { s with memCtl.firstViolation := some v }

end Sys2Proof.Machine
end

