-- ==== Sys2Proof/Machine/Blocks.lean ====
section
/-!
DEFINITION. Configuration blocks (R71): the field tables of every service type and the reading of their slots.
-/

namespace Sys2Proof.Machine

open Sys2Proof

/-- The kinds of field of R71, with their ranges. -/
inductive FieldKind where
  /-- unsigned number, enumeration, mask, handle or reference in a range -/
  | num (lo hi : Nat)
  /-- signed number in one slot -/
  | int (lo hi : Int)
  /-- one of the values listed -/
  | oneOf (vals : List Nat)
  /-- 64-bit value, or a 96-bit mask -/
  | wide
  /-- 48-bit address -/
  | mac
  /-- NODE_m of FIELD_PORT -/
  | node
  /-- PEER_OFFSET_n of OCCUPANCY -/
  | offset
  /-- a joint field of R260 for a joint beyond the first, whose range is checked only for joints of the partition -/
  | joint (lo hi : Nat)
  deriving DecidableEq, Repr

/-- The default of a field. -/
inductive FieldDefault where
  | mustSet
  | is (v : Nat)
  /-- the default depends on other objects and is resolved where the field is used -/
  | elsewhere
  deriving DecidableEq, Repr

/-- One field of a block. -/
structure FieldDef where
  name : String
  kind : FieldKind
  dflt : FieldDefault := .mustSet
  slots : Nat := 1
  deriving DecidableEq, Repr

/-- A field written with an index, expanded over it (R71). -/
def indexed (n : Nat) (d : FieldDef) : List FieldDef := List.replicate n d

/-- LINE (R61). -/
def lineFields : List FieldDef :=
  [⟨"ENC_COUNTS", .num 1024 4194304, .mustSet, 1⟩, ⟨"ENC_FILTER", .num 4 1023, .is 110, 1⟩,
   ⟨"ENC_Z_ENABLE", .num 0 1, .is 0, 1⟩, ⟨"ENC_Z_OFFSET", .num 0 4194303, .is 0, 1⟩, ⟨"ENC_Z_TOL", .num 0 255, .is 4, 1⟩,
   ⟨"ENC_MAX_RATE", .num 1 100, .is 4, 1⟩, ⟨"ENC1_MODE", .num 0 2, .is 0, 1⟩, ⟨"ENC1_LIMIT", .num 1 65535, .is 16, 1⟩,
   ⟨"STOP_WINDOW", .num 1 1000, .is 20, 1⟩, ⟨"STOP_THRESHOLD", .num 0 65535, .is 1, 1⟩, ⟨"VIRT_RATE", .num 0 65535, .is 0, 1⟩,
   ⟨"LINE_TICK", .oneOf [1, 2, 4, 8, 16, 32, 64, 128, 256], .is 16, 1⟩, ⟨"LINE_ROLE", .num 0 2, .is 0, 1⟩,
   ⟨"DIST_DELAY", .num 1 20, .is 2, 1⟩, ⟨"LINE_MSG_TIMEOUT", .num 5 1000, .is 50, 1⟩] ++
  indexed 4 ⟨"DLn_KEY", .num 0 1, .is 0, 1⟩ ++ indexed 4 ⟨"DLn_OWNER", .num 0 0x3FFFFF, .elsewhere, 1⟩

/-- FIELD_PORT (R443).  TIME_GROUP has the default none, without must be set: a port where it is defaulted has no group address (log 66). -/
def fieldPortFields : List FieldDef :=
  [⟨"LOCAL_ID", .num 0 7, .mustSet, 1⟩, ⟨"NODE_COUNT", .num 1 8, .is 8, 1⟩, ⟨"TO_TIMER", .num 16 255, .is 32, 1⟩,
   ⟨"MAX_BURST", .num 0 15, .is 1, 1⟩, ⟨"MAC", .mac, .mustSet, 2⟩, ⟨"ETHERTYPE", .num 0x0600 0xFFFE, .mustSet, 1⟩,
   ⟨"TIME_GROUP", .mac, .elsewhere, 2⟩, ⟨"TIME_PERIOD", .num 0 1000, .is 10, 1⟩, ⟨"TX_MODE", .num 0 1, .is 1, 1⟩,
   ⟨"GO_STEP", .num 50 1000, .is 250, 1⟩, ⟨"NSTOP", .num 0 16, .is 8, 1⟩, ⟨"FRAG_BYTES", .num 64 1024, .is 256, 1⟩] ++
  indexed 8 ⟨"NODE_m", .node, .is 0x30000, 3⟩

/-- PEER (R470). -/
def peerFields : List FieldDef :=
  [⟨"LINKS_EN", .num 0 0x7F, .mustSet, 1⟩, ⟨"GATHER_LIMIT", .num 5 500, .is 40, 1⟩]

/-- MEMORY_REGIONS (R381). -/
def memoryFields : List FieldDef :=
  [⟨"BSP_CODE", .wide, .is 0, 3⟩] ++ indexed 92 ⟨"BSP_OWNER_n", .num 0 5, .is 0, 1⟩ ++ [⟨"LP_CODE", .wide, .is 0, 2⟩] ++
  indexed 64 ⟨"LP_OWNER_p", .oneOf [0, 1, 2, 3, 4, 6, 7], .is 0, 1⟩ ++
  [⟨"TRC_CODE", .num 0 1, .is 0, 1⟩, ⟨"AUTO_REPAIR", .num 0 1, .is 1, 1⟩]

/-- SAFETY (R375). -/
def safetyFields : List FieldDef :=
  [⟨"WIN_START", .num 0 65484, .is 250, 1⟩, ⟨"WIN_END", .num 50 65534, .is 940, 1⟩, ⟨"COVERAGE_LIMIT", .num 10 1000, .is 100, 1⟩,
   ⟨"SLICE_CONCURRENCY", .num 1 8, .is 4, 1⟩, ⟨"DISAGREE_LIMIT", .num 1 16, .is 2, 1⟩,
   ⟨"DISAGREE_WINDOW", .num 1 65534, .is 1000, 1⟩, ⟨"SAFE_REQ_RELEASE", .num 1 1000, .is 10, 1⟩]

/-- CAMERA_PORT (R325). -/
def cameraFields : List FieldDef :=
  [⟨"LANES", .oneOf [1, 2, 4], .is 4, 1⟩, ⟨"VC", .num 0 3, .is 0, 1⟩, ⟨"DATA_TYPE", .num 0 3, .mustSet, 1⟩,
   ⟨"DEPTH_DT", .num 0x30 0x37, .is 0x30, 1⟩, ⟨"WIDTH", .num 1 16384, .mustSet, 1⟩, ⟨"HEIGHT", .num 1 16384, .mustSet, 1⟩,
   ⟨"BUFFERS", .num 1 4, .is 4, 1⟩, ⟨"OVERRUN", .num 0 1, .is 0, 1⟩, ⟨"FRAME_NUMBERS", .num 0 1, .is 1, 1⟩,
   ⟨"FROZEN_BANDS", .num 1 65, .is 48, 1⟩, ⟨"FRAME_MAX", .num 1 1000, .is 40, 1⟩,
   ⟨"CONSUMER_JOB", .num 0 0xFFFE, .mustSet, 1⟩, ⟨"CONSUMER_SERVICE", .num 0 63, .mustSet, 1⟩,
   ⟨"FRAME_RING", .num 0 0xFFF, .mustSet, 1⟩, ⟨"RING_ME", .num 0 16, .is 16, 1⟩]

/-- CONTROL_CYCLE (R17). -/
def cycleFields : List FieldDef :=
  [⟨"DL", .num 0 3, .mustSet, 1⟩, ⟨"PERIOD", .num 2 16777214, .mustSet, 1⟩, ⟨"PHASE", .num 0 16777213, .is 0, 1⟩,
   ⟨"CYCLE_SYNC", .num 0 65535, .mustSet, 1⟩]

/-- A joint field of R260 for joints 0 to 7.  Every partition has joint 0; how many of the others it has is known at the arm, where their ranges
are tested (log 65). -/
def jointFields (name : String) (lo hi : Nat) (d : FieldDefault) : List FieldDef :=
  ⟨name, .num lo hi, d, 1⟩ :: indexed 7 ⟨name, .joint lo hi, d, 1⟩

/-- PLANNING_CHANNEL (R201, then R260, then R348). -/
def channelFields : List FieldDef :=
  [⟨"CHANNEL", .num 0 15, .mustSet, 1⟩, ⟨"PARTITION", .num 0 15, .mustSet, 1⟩, ⟨"PATTERN_SIG", .wide, .mustSet, 2⟩,
   ⟨"START_NODE", .num 0 262143, .mustSet, 1⟩, ⟨"PRIVILEGED", .num 0 1, .is 0, 1⟩, ⟨"DARN_SLOT", .num 0 3, .is 0, 1⟩,
   ⟨"CLASS_MASK", .num 1 0xFFFF, .is 0xFFFF, 1⟩, ⟨"CANDIDATES", .num 1 16, .is 4, 1⟩,
   ⟨"MAX_EXPANSIONS", .num 16 8192, .is 2048, 1⟩, ⟨"TIME_WEIGHT", .num 0 255, .is 64, 1⟩, ⟨"HEUR_SCALE", .num 0 65535, .is 0, 1⟩,
   ⟨"START_LEAD", .num 100 32000, .is 1000, 1⟩, ⟨"RELEASE_DEADLINE", .num 50 0xFFFFFFFF, .is 950, 1⟩,
   ⟨"DARN_BACK", .num 1 3, .is 2, 1⟩, ⟨"DARN_REJOIN", .num 1 8, .is 4, 1⟩, ⟨"DARN_MAX_EDGES", .num 1 8, .is 4, 1⟩,
   ⟨"DARN_BUDGET", .num 16 2048, .is 256, 1⟩, ⟨"DARN_CANDIDATES", .num 1 4, .is 2, 1⟩, ⟨"CH_STATE", .num 0 0xFFF, .mustSet, 1⟩] ++
  jointFields "V_LIM_k" 1 65535 .elsewhere ++ jointFields "A_LIM_k" 1 65535 .mustSet ++ jointFields "J_LIM_k" 1 65535 .mustSet ++
  jointFields "T_LIM_k" 0 65535 (.is 65535) ++ jointFields "G_MAX_k" 0 65535 (.is 0) ++ jointFields "I_EFF_k" 1 65535 (.is 1) ++
  [⟨"EASE_SPAN", .num 100 65535, .is 25600, 1⟩, ⟨"EASE_MARGIN", .num 0 16, .is 2, 1⟩, ⟨"STOP_TIME", .num 1 1000, .is 40, 1⟩,
   ⟨"EASE_DEADLINE", .num 20 0xFFFFFFFF, .is 600, 1⟩, ⟨"EASE_ITER_MAX", .num 1 65534, .is 64, 1⟩,
   ⟨"EASE_ALPHA", .num 64 230, .is 205, 1⟩, ⟨"EASE_TINY_EXP", .int (-31) (-1), .is 0xFFFFFFEC, 1⟩,
   ⟨"EASE_DELTA_EXP", .int (-30) 0, .is 0xFFFFFFF0, 1⟩, ⟨"EASE_EPS_P", .num 1 2147483646, .is 1048, 1⟩,
   ⟨"EASE_EPS_D", .num 1 2147483646, .is 1048, 1⟩, ⟨"EASE_SIG", .wide, .mustSet, 2⟩,
   ⟨"ROBOT_MODEL", .num 0 0xFFF, .mustSet, 1⟩, ⟨"MODEL_SIG", .wide, .mustSet, 2⟩, ⟨"SAMPLE_STEP", .num 50 4000, .is 250, 1⟩]

/-- OCCUPANCY (R173). -/
def occupancyFields : List FieldDef :=
  [⟨"PITCH_UM", .num 5000 50000, .mustSet, 1⟩, ⟨"ORIGIN_X", .int (-2147483648) 2147483647, .mustSet, 1⟩,
   ⟨"ORIGIN_Y", .int (-2147483648) 2147483647, .mustSet, 1⟩, ⟨"ORIGIN_Z", .int (-2147483648) 2147483647, .mustSet, 1⟩,
   ⟨"SLICE_PERIOD", .num 2 32, .is 8, 1⟩, ⟨"SLICE_PHASE", .num 0 31999, .is 0, 1⟩, ⟨"CLEAR_CONFIRM", .num 1 3, .is 2, 1⟩,
   ⟨"OBS_PORTS", .num 0 15, .is 0, 1⟩, ⟨"OBS_MAX_AGE", .num 1 32, .is 6, 1⟩, ⟨"OBS_TIMEOUT", .num 2 100, .is 12, 1⟩,
   ⟨"PRED_MAX_AGE", .num 3 200, .elsewhere, 1⟩, ⟨"PEER_MASK", .num 0 0x7F, .is 0, 1⟩] ++
  indexed 7 ⟨"PEER_OFFSET_n", .offset, .is 0, 1⟩ ++
  [⟨"PEER_TIMEOUT", .num 1 100, .is 5, 1⟩, ⟨"OCC_BITMAP", .num 0 0xFFF, .mustSet, 1⟩, ⟨"OCC_STORE", .num 0 0xFFF, .mustSet, 1⟩]

/-- SHEET_LOOP (R337). -/
def sheetFields : List FieldDef :=
  [⟨"PORT", .num 0 3, .mustSet, 1⟩, ⟨"DL", .num 0 3, .mustSet, 1⟩, ⟨"TAKE_FRAC", .num 0 0xFFFF, .mustSet, 1⟩,
   ⟨"REL_FRAC", .num 0 0xFFFF, .mustSet, 1⟩, ⟨"GOLD_FRAC", .num 0 0xFFFF, .mustSet, 1⟩, ⟨"SHEET_LAG", .num 0 3, .is 0, 1⟩,
   ⟨"MAIN_LIST", .num 0 255, .mustSet, 1⟩, ⟨"GOLD_LIST", .num 0 255, .mustSet, 1⟩, ⟨"REL_SYNC", .num 0 65535, .mustSet, 1⟩,
   ⟨"GOLD_SYNC", .num 0 65535, .mustSet, 1⟩, ⟨"DEST", .num 0 4, .is 4, 1⟩, ⟨"N_VALUES", .num 1 1024, .mustSet, 1⟩,
   ⟨"N_DEFECTS", .num 0 16, .is 8, 1⟩, ⟨"NEUTRAL", .num 0 0xFFF, .mustSet, 1⟩, ⟨"CORR_RING", .num 0 0xFFF, .elsewhere, 1⟩,
   ⟨"CORR_SLOTS", .num 2 256, .is 16, 1⟩, ⟨"GOLDEN_EN", .num 0 1, .is 1, 1⟩, ⟨"GOLDEN_EXPECT", .num 0 0xFFF, .elsewhere, 1⟩,
   ⟨"GOLDEN_PERIOD", .num 1 65534, .is 250, 1⟩, ⟨"GOLDEN_INTERVAL", .num 1 65534, .is 500, 1⟩,
   ⟨"GOLDEN_TOL", .num 0 2147483646, .is 0, 1⟩]

/-- The field table of a service type (R71); PREDICTOR and GENERAL have no field. -/
def blockFields (serviceType : Nat) : List FieldDef :=
  match serviceType with
  | 0x01 => lineFields
  | 0x02 => fieldPortFields
  | 0x03 => peerFields
  | 0x04 => memoryFields
  | 0x05 => safetyFields
  | 0x06 => cameraFields
  | 0x10 => cycleFields
  | 0x11 => channelFields
  | 0x12 => occupancyFields
  | 0x14 => sheetFields
  | _ => []

/-- Number of slots of a list of fields. -/
def slotCount (fs : List FieldDef) : Nat := (fs.map (·.slots)).foldl (· + ·) 0

/-- A service type of a job-level block. -/
def jobLevel (serviceType : Nat) : Bool := 0x10 ≤ serviceType && serviceType ≤ 0x15

/-- Index of DEFAULT_MASK among the block's words (R71). -/
def bodyAt (serviceType : Nat) : Nat := if jobLevel serviceType then 2 else 1

/-- LENGTH of a block of a service type, in words (R71). -/
def blockLength (serviceType : Nat) : Nat := bodyAt serviceType + 1 + ceilDiv (slotCount (blockFields serviceType)) 8

/-- Word `i` of a block. -/
def Block.word (b : Block) (i : Nat) : Nat := (nth b.words i 0).toNat

/-- `n` successive slots from slot `i`, first slot lowest. -/
def Block.slots (b : Block) (i : Nat) : Nat → Nat
  | 0 => 0
  | n + 1 => bits (b.word (bodyAt b.serviceType + 1 + i / 8)) (32 * (i % 8)) 32 + 2 ^ 32 * Block.slots b (i + 1) n

/-- The DEFAULT_MASK bit of field `f`. -/
def Block.defaulted (b : Block) (f : Nat) : Bool := (b.word (bodyAt b.serviceType)).testBit f

/-- The value of field `f` as stored, or its default (R71); zero where the default is resolved elsewhere. -/
def Block.field (b : Block) (f : Nat) : Nat :=
  let fs := blockFields b.serviceType
  match fs[f]? with
  | none => 0
  | some d =>
    if b.defaulted f then (match d.dflt with | .is v => v | _ => 0)
    else b.slots (slotCount (fs.take f)) d.slots

/-- A signed field. -/
def Block.int (b : Block) (f : Nat) : Int := signed 32 (b.field f)

/-- The range test of a field's raw value (R71, R85 test 3). -/
def FieldKind.holds (k : FieldKind) (v : Nat) : Bool :=
  match k with
  | .num lo hi => lo ≤ v && v ≤ hi
  | .int lo hi => lo ≤ signed 32 v && signed 32 v ≤ hi
  | .oneOf vals => vals.contains v
  | .wide => true
  | .mac => v < 2 ^ 48
  | .node =>
    bits v 3 1 == 0 && bits v 6 2 == 0 && bits v 12 4 == 0 && bits v 23 9 == 0 && 1 ≤ bits v 16 7 && bits v 16 7 ≤ 100
  | .offset =>
    bits v 26 6 == 0 && bits v 0 9 != 256 && bits v 9 9 != 256 && bits v 18 8 != 128
  | .joint _ _ => true

/-- The DEFAULT_MASK, range and reserved-slot tests of R71 that concern one field. -/
def Block.fieldOk (b : Block) (f : Nat) (d : FieldDef) : Bool :=
  let raw := b.slots (slotCount ((blockFields b.serviceType).take f)) d.slots
  if b.defaulted f then
    raw == 0 && (d.dflt != .mustSet || (match d.kind with | .joint _ _ => true | _ => false))
  else d.kind.holds raw

/-- Every field test of R71: mask bits and slots beyond the last field are zero, and each field is in its range. -/
def Block.fieldsOk (b : Block) : Bool :=
  let fs := blockFields b.serviceType
  let n := slotCount fs
  (b.word (bodyAt b.serviceType)) >>> fs.length == 0 &&
  b.slots n (8 * ceilDiv n 8 - n) == 0 &&
  ((List.range fs.length).zip fs).all fun (f, d) => b.fieldOk f d

/-! ## Field numbers used by the machine -/

/-- The enabled block of a device-level service. -/
def State.devBlock (s : State) (service : Nat) : Option Block :=
  s.devBlocks.find? fun b => b.service == service && b.enabled

/-- A field of the enabled block of a device-level service, or the given value while no block is in force. -/
def State.devField (s : State) (service f : Nat) (absent : Nat) : Nat :=
  match s.devBlock service with
  | some b => b.field f
  | none => absent

/-- An enabled job-level block of a service type in a job. -/
def Job.blockOf (j : Job) (serviceType : Nat) : Option Block :=
  j.blocks.find? fun b => b.serviceType == serviceType && b.enabled

/-- The enabled blocks of a job. -/
def Job.enabledBlocks (j : Job) : List Block := j.blocks.filter (·.enabled)

/-- The enabled block of a service of a job. -/
def Job.service (j : Job) (service : Nat) : Option Block := j.blocks.find? fun b => b.service == service && b.enabled

/-- The job that is ARMED, RUNNING or DISARMING, with its slot (R65). -/
def State.activeJob (s : State) : Option (Nat × Job) :=
  (List.range 4).findSome? fun i => match nth s.jobs i none with
    | some j => if j.state == .defined then none else some (i, j)
    | none => none

/-- The RUNNING job, with its slot. -/
def State.runningJob (s : State) : Option (Nat × Job) :=
  match s.activeJob with
  | some (i, j) => if j.state == .running then some (i, j) else none
  | none => none

/-- The slot that holds a job, by its JOB_ID. -/
def State.jobById (s : State) (id : Nat) : Option (Nat × Job) :=
  (List.range 4).findSome? fun i => match nth s.jobs i none with
    | some j => if j.id.toNat == id then some (i, j) else none
    | none => none

/-- The job in a slot. -/
def State.jobIn (s : State) (slot : Nat) : Option Job := nth s.jobs slot none

/-- Change the job in a slot. -/
def State.setJob (s : State) (slot : Nat) (f : Job → Job) : State := { s with jobs := upd s.jobs slot (·.map f) }

/-- The enabled PLANNING_CHANNEL block of the active job that has a channel number. -/
def Job.channelBlock (j : Job) (ch : Nat) : Option Block :=
  j.blocks.find? fun b => b.serviceType == 0x11 && b.enabled && b.field 0 == ch

end Sys2Proof.Machine
end

