-- ==== Sys2Proof/Machine/Ecc.lean ====
section
/-!
DEFINITION. The two codes of the memories: SEC-DED (R384, R385) and row/column parity (R386, R387), with the poison mark (R391).
-/

namespace Sys2Proof.Machine

open Sys2Proof

/-- Parity of a 256-bit number. -/
def parity (n : Nat) : Nat :=
  let n := n ^^^ (n >>> 128)
  let n := n ^^^ (n >>> 64)
  let n := n ^^^ (n >>> 32)
  let n := n ^^^ (n >>> 16)
  let n := n ^^^ (n >>> 8)
  let n := n ^^^ (n >>> 4)
  let n := n ^^^ (n >>> 2)
  (n ^^^ (n >>> 1)) % 2

/-- Is a number a power of two? -/
def isPow2 (n : Nat) : Bool := n != 0 && (n &&& (n - 1)) == 0

/-- The data bits that enter C[j]: bit i is set where bit j of p(i) is set (R384). -/
def secMask (j : Nat) : Nat :=
  match j with
  | 0 => 0xAAD5555555555555555555555555555555AAAAAAAAAAAAAAAB55555556AAAD5B
  | 1 => 0x3366666666666666666666666666666666CCCCCCCCCCCCCCCD9999999B33366D
  | 2 => 0x3C78787878787878787878787878787878F0F0F0F0F0F0F0F1E1E1E1E3C3C78E
  | 3 => 0xC07F807F807F807F807F807F807F807F80FF00FF00FF00FF01FE01FE03FC07F0
  | 4 => 0x007FFF80007FFF80007FFF80007FFF8000FFFF0000FFFF0001FFFE0003FFF800
  | 5 => 0x007FFFFFFF800000007FFFFFFF80000000FFFFFFFF00000001FFFFFFFC000000
  | 6 => 0x007FFFFFFFFFFFFFFF8000000000000000FFFFFFFFFFFFFFFE00000000000000
  | 7 => 0x007FFFFFFFFFFFFFFFFFFFFFFFFFFFFFFF000000000000000000000000000000
  | 8 => 0xFF80000000000000000000000000000000000000000000000000000000000000
  | _ => 0

/-- C[8:0] of R384. -/
def secSyndrome (d : Nat) : Nat :=
  (List.range 9).foldl (fun acc j => acc ||| (parity (d &&& secMask j) <<< j)) 0

/-- The ten check bits of SEC-DED (R384). -/
def secCheck (d : Nat) : Nat :=
  let c := secSyndrome d
  c ||| ((parity d ^^^ parity c) <<< 9)

/-- p(i) of R384: the (i + 1)-th integer at least 3 that is not a power of two. -/
def secPos (i : Nat) : Nat := (((List.range 266).drop 3).filter fun n => !isPow2 n).getD i 0

/-- The data bit at a position of R384: the inverse of p. -/
def secBit (p : Nat) : Nat := p - 3 - ((List.range 9).filter fun j => 2 ≤ j && 2 ^ j ≤ p).length

/-- RP of R386 in [15:0] and CP in [31:16]. -/
def rowColCheck (d : Nat) : Nat :=
  (List.range 16).foldl (fun acc r =>
    let row := bits d (16 * r) 16
    acc ^^^ (parity row <<< r) ^^^ (row <<< 16)) 0

/-- The check bits of a data word (R383). -/
def checkBits (rowCol : Bool) (d : Nat) : Nat := if rowCol then rowColCheck d else secCheck d

/-- A word stored under a code. -/
def encodeWord (rowCol : Bool) (d : Word) : Stored := ⟨d, BitVec.ofNat 32 (checkBits rowCol d.toNat)⟩

/-- The poisoned word of a code: zero data, and the check bits of zero XOR the poison mask (R391). -/
def poisonStored (rowCol : Bool) : Stored := ⟨0, if rowCol then 0xFFFFFFFF else 0x3FF⟩

/-- What a read decodes (R385, R387). -/
inductive Decoded where
  | clean (d : Word)
  | corrected (d : Word) (bit syndrome : Nat)
  | poison
  | uncorrectable (syndrome : Nat)
  deriving DecidableEq, Repr

/-- A data word with one bit flipped. -/
def flipBit (d : Word) (i : Nat) : Word := word (d.toNat ^^^ (1 <<< i))

/-- Decoding under SEC-DED (R385). -/
def decodeSec (st : Stored) : Decoded :=
  let d := st.data.toNat
  let c := bits st.check.toNat 0 10
  let syn := secSyndrome d ^^^ bits c 0 9
  let p := parity d ^^^ parity c
  if p == 0 then
    if syn == 0 then .clean st.data else if syn == 0x1FF then .poison else .uncorrectable syn
  else if syn == 0 then .corrected st.data 265 syn
  else if isPow2 syn then .corrected st.data (256 + Nat.log2 syn) syn
  else if syn ≤ 265 then .corrected (flipBit st.data (secBit syn)) (secBit syn) syn
  else .uncorrectable syn

/-- Decoding under row/column parity (R387). -/
def decodeRowCol (st : Stored) : Decoded :=
  let syn := rowColCheck st.data.toNat ^^^ st.check.toNat
  let rs := bits syn 0 16
  let cs := bits syn 16 16
  if syn == 0 then .clean st.data
  else if rs == 0xFFFF && cs == 0xFFFF then .poison
  else if isPow2 rs && isPow2 cs then
    let i := 16 * Nat.log2 rs + Nat.log2 cs
    .corrected (flipBit st.data i) i syn
  else if isPow2 rs && cs == 0 then .corrected st.data (256 + Nat.log2 rs) syn
  else if rs == 0 && isPow2 cs then .corrected st.data (272 + Nat.log2 cs) syn
  else .uncorrectable syn

/-- Decoding of a stored word (R389). -/
def decodeStored (rowCol : Bool) (st : Stored) : Decoded := if rowCol then decodeRowCol st else decodeSec st

end Sys2Proof.Machine
end

