-- ==== Sys2Proof/Machine/Memory.lean ====
section
/-!
DEFINITION. The memories of the device (file 15): one list of words in canonical form, device addresses, reads with correction,
whole-word writes, the merge buffer, atomics and poison.

A word key is the device address divided by 32 for the BSP, the Thimble and LPDDR5; the edge-state memory, panels, Work Core and
CC memories lie at keys of their own (assumption log 1).
-/

namespace Sys2Proof.Machine

open Sys2Proof

/-! ## Keys -/

/-- The memories, coded as in MEM_LAST_UNCORR_INFO. -/
def memBsp : Nat := 0
def memLpddr : Nat := 1
def memEdge : Nat := 2
def memPanel : Nat := 3
def memCore : Nat := 4
def memCc : Nat := 5
def memThimble : Nat := 6

/-- First key of the Thimble, of LPDDR5, and of the memories that have no device address. -/
def thimbleBase : Nat := 0x400000
def lpddrBase : Nat := 0x8000000
def innerBase : Nat := 0x1000000000000

/-- Words of the BSP and of one LPDDR5 region under each code (R378, R379). -/
def bspWords : Nat := 3145728
def lpWords (rowCol : Bool) : Nat := if rowCol then 29360128 else 31457280

/-- The key of word `i` of an instance of a memory. -/
def memKey (mem inst i : Nat) : Nat :=
  if mem == memBsp then i
  else if mem == memLpddr then lpddrBase + i
  else if mem == memThimble then thimbleBase + i
  else innerBase * mem + 0x100000000 * inst + i

/-- The memory and instance of a key. -/
def keyMem (k : Nat) : Nat × Nat :=
  if k < thimbleBase then (memBsp, 0)
  else if k < lpddrBase then (memThimble, 0)
  else if k < innerBase then (memLpddr, 0)
  else (k / innerBase, k % innerBase / 0x100000000)

/-- The address that a record names for a key: the device address, or the word index within the instance (R514). -/
def keyAddr (k : Nat) : Nat := if k < innerBase then 32 * k else k % 0x100000000

/-- Words of one instance of a memory (R383); the Work Core size is not stated (assumption log 8). -/
def memWords (mem : Nat) : Option Nat :=
  match mem with
  | 0 => some bspWords
  | 2 => some 1048576
  | 3 => some 32768
  | 5 => some 65536
  | 6 => some 32768
  | _ => none

/-! ## The canonical list -/

/-- What an unlisted word holds: zero with zero check bits on chip (R406), undefined contents in LPDDR5. -/
def memDefault (k : Nat) : Option Stored := if lpddrBase ≤ k && k < innerBase then none else some ⟨0, 0⟩

/-- The canonical form: keys strictly rising, and no entry that equals what an unlisted word holds. -/
def Memory.wf : Memory → Bool
  | [] => true
  | (k, v) :: t => v != memDefault k && (match t with | [] => true | (k', _) :: _ => k < k') && Memory.wf t

/-- The contents of a word. -/
def Memory.get : Memory → Nat → Option Stored
  | [], k => memDefault k
  | (a, v) :: t, k => if a = k then v else Memory.get t k

/-- Replace the contents of a word, keeping the canonical form. -/
def Memory.put : Memory → Nat → Option Stored → Memory
  | [], k, v => if v = memDefault k then [] else [(k, v)]
  | (a, x) :: t, k, v =>
    if k < a then (if v = memDefault k then (a, x) :: t else (k, v) :: (a, x) :: t)
    else if a = k then (if v = memDefault k then t else (k, v) :: t)
    else (a, x) :: Memory.put t k v

/-- Replace the contents of several words. -/
def Memory.putAll (m : Memory) : List (Nat × Option Stored) → Memory
  | [] => m
  | (k, v) :: t => Memory.putAll (m.put k v) t

/-- Undefined contents for `n` words from a key, as canonical entries. -/
def undefinedCells (k : Nat) : Nat → List (Nat × Option Stored)
  | 0 => []
  | n + 1 => if memDefault k = none then undefinedCells (k + 1) n else (k, none) :: undefinedCells (k + 1) n

/-- The contents of `n` words from a key become undefined. -/
def Memory.forget (m : Memory) (k n : Nat) : Memory :=
  m.filter (fun c => decide (c.1 < k)) ++ (undefinedCells k n ++ m.filter fun c => decide (k + n ≤ c.1))

/-! ## Regions, owners and codes (R379, R381, R383) -/

/-- The code of LPDDR5 region p. -/
def State.lpCode (s : State) (p : Nat) : Bool := (s.devField 6 93 0).testBit p

/-- The LPDDR5 region and data word that a key names, walking the installed regions. -/
def lpFind (s : State) : Nat → Nat → Nat → Option (Nat × Nat)
  | 0, _, _ => none
  | n + 1, p, i =>
    let w := lpWords (s.lpCode p)
    if i < w then some (p, i) else lpFind s n (p + 1) (i - w)

/-- The LPDDR5 region of a key, none outside the installed regions. -/
def State.lpRegion (s : State) (k : Nat) : Option Nat :=
  if lpddrBase ≤ k then (lpFind s s.memCtl.regions 0 (k - lpddrBase)).map (·.1) else none

/-- First key of LPDDR5 region p, and its number of data words. -/
def State.lpStart (s : State) (p : Nat) : Nat :=
  (List.range p).foldl (fun acc q => acc + lpWords (s.lpCode q)) lpddrBase

/-- Where LPDDR5 holds a data word: its physical word, the physical word of its check bits, and the slot within that word (R379). -/
structure Physical where
  word : Nat
  check : Nat
  slot : Nat
  deriving DecidableEq, Repr

/-- The channel of a physical word (R379). -/
def lpChannel (w : Nat) : Nat := w % 16

/-- The place of data word i of region p under a code (R379). -/
def lpPlace (rowCol : Bool) (p i : Nat) : Physical :=
  let per := if rowCol then 8 else 16
  { word := 33554432 * p + i, check := 33554432 * p + lpWords rowCol + i / per, slot := i % per }

/-- The place of an LPDDR5 key; none outside the installed regions. -/
def State.lpPhysical (s : State) (k : Nat) : Option Physical :=
  if lpddrBase ≤ k then (lpFind s s.memCtl.regions 0 (k - lpddrBase)).map fun (p, i) => lpPlace (s.lpCode p) p i else none

/-- Does a word stand under row/column parity (R381, R383)? -/
def State.rowCol (s : State) (k : Nat) : Bool :=
  match (keyMem k).1 with
  | 0 => (s.devField 6 0 0).testBit (k / 32768)
  | 1 => match s.lpRegion k with | some p => s.lpCode p | none => false
  | 2 => s.devField 6 158 0 == 1
  | 6 => true
  | _ => false

/-- The owners of a region: 0 FREE, 1 to 4 job slots, 5 PATTERN, 6 SLOT_A, 7 SLOT_B (R71), 8 the firmware (BSP regions 0 to 3). -/
def State.ownerOf (s : State) (k : Nat) : Option Nat :=
  if k < bspWords then
    let n := k / 32768
    if n < 4 then some 8 else some (s.devField 6 (n - 3) 0)
  else if lpddrBase ≤ k && k < innerBase then (s.lpRegion k).map fun p => s.devField 6 (94 + p) 0
  else none

/-! ## Corrections and errors of a read (R389 to R392, R410) -/

/-- Who reads: requester number of R407, and the job and service concerned. -/
structure Requester where
  num : Nat
  job : BitVec 16 := 0xFFFF
  service : Nat := 0
  /-- DETAIL_A of the alarm that an uncorrectable read raises (R196, R197; zero elsewhere) -/
  detail : Nat := 0
  /-- the alarm names the word in its details: word key [15:0] in DETAIL_A, the rest in DETAIL_B (R400, assumption log 77) -/
  names : Bool := false
  deriving DecidableEq, Repr

/-- Bank and word within the bank of a key (R393); a macro of its own otherwise.  The Tracer has 64 banks (R180). -/
def keyBank (k : Nat) : Nat × Nat :=
  match (keyMem k).1 with
  | 0 => (k % 128, k / 128)
  | 2 => (keyAddr k % 64, keyAddr k / 64)
  | _ => (0, keyAddr k)

/-- Row of 8 words within the bank (R409). -/
def keyRow (k : Nat) : Nat := (keyBank k).2 / 8

/-- The number under which the corrections of a memory instance are kept. -/
def memId (k : Nat) : Nat := 256 * (keyMem k).1 + (keyMem k).2

/-- A correction: counters, the window of its memory (R390), the last 64 corrections (R410) and the pending write-back (R389). -/
def noteCorrection (r : Requester) (k bit syndrome : Nat) (s : State) : State :=
  let (mem, inst) := keyMem k
  let old := ((s.memCtl.history.find? (·.1 == memId k)).map (·.2)).getD []
  let onChip := mem != memLpddr
  let hard := onChip && old.any fun c => c.key == k && c.bit == bit
  let entry : Correction := ⟨k, bit, hard⟩
  let hist := if onChip then (memId k, (entry :: old).take 64) :: s.memCtl.history.filter (·.1 != memId k) else s.memCtl.history
  let present (w : CorrWindow) : Bool := w.memory == mem && w.inst == inst && w.gcnt.toNat / 1000000 == s.now / 1000000
  let prev := s.memCtl.windows.find? present
  let win : CorrWindow :=
    { memory := mem, inst := inst, count := satAdd 65535 ((prev.map (·.count)).getD 0) 1, addr := keyAddr k,
      syndrome := BitVec.ofNat 32 syndrome, requester := r.num, gcnt := s.gcnt, rowCol := s.rowCol k,
      hard := hard || (prev.map (·.hard)).getD false, job := r.job, service := r.service }
  let wb := if s.memCtl.writeBacks.any (·.key == k) then s.memCtl.writeBacks
    else s.memCtl.writeBacks ++ [⟨k, s.now, false⟩]
  { s with
    memCtl.corrected := satAdd (2 ^ 64 - 1) s.memCtl.corrected 1
    memCtl.history := hist
    memCtl.windows := s.memCtl.windows.filter (!present ·) ++ [win]
    memCtl.writeBacks := wb
    memCtl.hard := if hard then satAdd 65535 s.memCtl.hard 1 else s.memCtl.hard
    memCtl.candidates := if hard then s.memCtl.candidates ++ [entry] else s.memCtl.candidates }

/-- An uncorrectable read (R392). -/
def noteUncorrectable (r : Requester) (k syndrome : Nat) (s : State) : State :=
  let info := r.num ||| at_ (keyMem k).1 8 4 ||| at_ (b2n (s.rowCol k)) 12 1 ||| at_ syndrome 16 16
  let s := { s with
    memCtl.uncorr := satAdd 65535 s.memCtl.uncorr 1
    memCtl.lastUncorr := keyAddr k
    memCtl.lastUncorrInfo := BitVec.ofNat 32 info }
  raiseAlarm 0x0A01 (if r.names then k % 65536 else r.detail) (if r.names then k / 65536 else 0) s

/-- A word as the fabric delivers it: its data, and the poison mark. -/
structure Got where
  data : Word
  bad : Bool
  deriving DecidableEq, Repr

/-- The stored word of a key.  Undefined contents take a fresh free value, which then stands (assumption log 5). -/
def fetchStored (k : Nat) (s : State) : State × Stored :=
  match s.mem.get k with
  | some st => (s, st)
  | none =>
    let st : Stored := ⟨Config.freeData s.freeCount, Config.freeCheck s.freeCount⟩
    ({ s with mem := s.mem.put k (some st), freeCount := s.freeCount + 1 }, st)

/-- Read and decode a word, without its merge-buffer entry (R389 to R392). -/
def readPlain (r : Requester) (k : Nat) (s : State) : State × Got :=
  let (s, st) := fetchStored k s
  match decodeStored (s.rowCol k) st with
  | .clean d => (s, ⟨d, false⟩)
  | .corrected d bit syn => (noteCorrection r k bit syn s, ⟨d, false⟩)
  | .poison => ({ s with memCtl.poisonReads := satAdd 65535 s.memCtl.poisonReads 1 }, ⟨0, true⟩)
  | .uncorrectable syn => (noteUncorrectable r k syn s, ⟨0, true⟩)

/-! ## Writes (R391, R404, R405, R408) -/

/-- Store contents as they are; a pending write-back of the word is void (R389).  A write over the slot header of a slot buffer,
its first 32 words, leaves no loaded structure there (R249). -/
def storeWord (k : Nat) (st : Stored) (s : State) : State :=
  { s with
    mem := s.mem.put k (some st)
    se.slots := s.se.slots.filter fun x => !(x.at_ ≤ k && k < x.at_ + 32)
    memCtl.writeBacks := s.memCtl.writeBacks.filter (·.key != k) }

/-- The armed flip takes a whole-word write to this word (R408). -/
def flipTakes (f : Flip) (k : Nat) : Bool :=
  (keyMem k).1 == f.memory && (keyMem k).2 == f.inst &&
    (match f.addr with | some a => a == k | none => true)

/-- Store the contents of a whole-word write: the merge-buffer entry of the word is discarded (R405), and an armed flip that takes
the word is applied and disarmed (R408). -/
def storeWhole (k : Nat) (st : Stored) (s : State) : State :=
  let s := { s with memCtl.merge := s.memCtl.merge.filter (·.word != k) }
  match s.memCtl.flip with
  | some f =>
    if flipTakes f k then
      storeWord k ⟨st.data ^^^ f.dataMask, st.check ^^^ f.checkMask⟩ { s with memCtl.flip := none, memCtl.flipFired := true }
    else storeWord k st s
  | none => storeWord k st s

/-- A whole-word write of data, encoded under the code of its region. -/
def writeWord (k : Nat) (d : Word) (s : State) : State := storeWhole k (encodeWord (s.rowCol k) d) s

/-- A whole-word write of a word with the poison mark (R391, R399). -/
def writePoison (k : Nat) (s : State) : State := storeWhole k (poisonStored (s.rowCol k)) s

/-- Write a word or the poison mark. -/
def writeGot (k : Nat) (g : Got) (s : State) : State := if g.bad then writePoison k s else writeWord k g.data s

/-- Successive whole-word writes. -/
def writeWords (k : Nat) : List Word → State → State
  | [], s => s
  | w :: t, s => writeWords (k + 1) t (writeWord k w s)

/-- Whole-word writes of `n` words that the device keeps for itself: what they hold is free (assumption log 5). -/
def writePrivate (k : Nat) : Nat → State → State
  | 0, s => s
  | n + 1, s => writePrivate (k + 1) n (writeWord k (Config.freeData s.freeCount) { s with freeCount := s.freeCount + 1 })

/-- Poison `n` successive words. -/
def poisonWords (k : Nat) : Nat → State → State
  | 0, s => s
  | n + 1, s => poisonWords (k + 1) n (writePoison k s)

/-- Successive words that may each carry the poison mark. -/
def writeGots (k : Nat) : List Got → State → State
  | [], s => s
  | g :: t, s => writeGots (k + 1) t (writeGot k g s)

/-- The bytes of a merge entry laid over a word. -/
def mergeBytes (d : Word) (bs : List (Option Byte)) : Word :=
  word (ofBytes (((wordBytes d).zip bs).map fun (old, b) => b.getD old))

/-- Flush one merge-buffer entry: read, merge, write whole; drop it where the read fails (R405). -/
def flushEntry (e : MergeEntry) (s : State) : State :=
  let (s, g) := readPlain { num := 0 } e.word s
  let s := { s with memCtl.merge := s.memCtl.merge.filter (·.word != e.word) }
  if g.bad then
    violate 0 (32 * e.word) false true true { s with memCtl.mergeDropped := satAdd 65535 s.memCtl.mergeDropped 1 }
  else
    writeWord e.word (mergeBytes g.data e.bytes) { s with memCtl.mergeWritten := satAdd 65535 s.memCtl.mergeWritten 1 }

/-- Flush the entry of a word, if it has one. -/
def flushWord (k : Nat) (s : State) : State :=
  match s.memCtl.merge.find? (·.word == k) with
  | some e => flushEntry e s
  | none => s

/-- Flush every entry, oldest first. -/
def flushAll (s : State) : State := s.memCtl.merge.foldl (fun s e => flushEntry e s) s

/-- A narrow write in Maintenance mode (R405). -/
def mergeWrite (k : Nat) (bs : List (Option Byte)) (s : State) : State :=
  let put (e : MergeEntry) (s : State) : State :=
    if e.bytes.all (·.isSome) then
      writeWord k (mergeBytes 0 e.bytes) { s with memCtl.mergeWritten := satAdd 65535 s.memCtl.mergeWritten 1 }
    else
      let others := s.memCtl.merge
      if others.any (·.word == k) then { s with memCtl.merge := others.map fun x => if x.word == k then e else x }
      else { s with memCtl.merge := others ++ [e] }
  match s.memCtl.merge.find? (·.word == k) with
  | some e => put ⟨k, (e.bytes.zip bs).map fun (old, b) => if b.isSome then b else old⟩ s
  | none =>
    let s : State := if s.memCtl.merge.length ≥ 64 then (match s.memCtl.merge with | e :: _ => flushEntry e s | [] => s) else s
    put ⟨k, bs⟩ s

/-! ## Reads -/

/-- Read a word: its merge-buffer entry is flushed first (R405). -/
def readWord (r : Requester) (k : Nat) (s : State) : State × Got := readPlain r k (flushWord k s)

/-- Read `n` successive words. -/
def readWords (r : Requester) (k : Nat) : Nat → State → State × List Got
  | 0, s => (s, [])
  | n + 1, s =>
    let (s, g) := readWord r k s
    let (s, gs) := readWords r (k + 1) n s
    (s, g :: gs)

/-- Read words at the keys listed. -/
def readKeys (r : Requester) : List Nat → State → State × List Got
  | [], s => (s, [])
  | k :: t, s =>
    let (s, g) := readWord r k s
    let (s, gs) := readKeys r t s
    (s, g :: gs)

/-- The data that a read of a word would give, without the read: its merge-buffer entry laid over it; none with the poison mark, for an
uncorrectable word and for undefined contents. -/
def State.peek (s : State) (k : Nat) : Option Word :=
  let d := match s.mem.get k with
    | none => none
    | some st => match decodeStored (s.rowCol k) st with
      | .clean d | .corrected d _ _ => some d
      | .poison | .uncorrectable _ => none
  d.map fun d => match s.memCtl.merge.find? (·.word == k) with
    | some e => mergeBytes d e.bytes
    | none => d

/-- The word carries the poison mark. -/
def State.poisonedAt (s : State) (k : Nat) : Bool :=
  match s.mem.get k with
  | none => false
  | some st => match decodeStored (s.rowCol k) st with
    | .poison => true
    | .clean _ | .corrected _ _ _ | .uncorrectable _ => false

/-- The data of words read. -/
def gotData (gs : List Got) : List Word := gs.map (·.data)

/-- Some word read carries the poison mark. -/
def anyBad (gs : List Got) : Bool := gs.any (·.bad)

/-- An atomic of R394 on a BSP word: operation 0 ADD32, 1 ADD64, 2 SWAP32, 3 SWAP64.  Gives the old lane, or none with poison. -/
def atomic (r : Requester) (k op lane operand : Nat) (s : State) : State × Option Nat :=
  let (s, g) := readWord r k s
  let width := if op % 2 == 0 then 32 else 64
  if g.bad then (s, none) else
  let old := bits g.data.toNat (width * lane) width
  let new := if op < 2 then (old + operand) % 2 ^ width else operand % 2 ^ width
  let d := g.data.toNat - (old <<< (width * lane)) + (new <<< (width * lane))
  (writeWord k (word d) s, some old)

/-- The contents of `n` words become undefined to everyone but their engine: private contents, or an area that moved (R204, R382). -/
def forgetWords (k n : Nat) (s : State) : State :=
  { s with mem := s.mem.forget k n, se.slots := s.se.slots.filter fun x => !(x.at_ < k + n && k < x.at_ + 32) }

/-- The contents of LPDDR5 from a key on become undefined (R382). -/
def forgetLpddr (k : Nat) (s : State) : State :=
  { s with mem := s.mem.filter fun c => decide (c.1 < k) || decide (innerBase ≤ c.1) }

end Sys2Proof.Machine
end

