-- ==== Sys2Proof/Machine/Reports.lean ====
section
/-!
DEFINITION. What the device reports: completion records (R88), events (R427, R514), the rings (R423 to R425), log records (R428)
and the completion of mailbox commands (R422).
-/

namespace Sys2Proof.Machine

open Sys2Proof

/-! ## Rings (R423 to R425) -/

/-- Word key of a ring's base, and its number of entries (R423). -/
def sqBase : Nat := 0x300000 / 32
def cqBase : Nat := 0x320000 / 32
def eqBase : Nat := 0x360000 / 32
def lqBase : Nat := 0x380000 / 32
def sqSize : Nat := 4096
def cqSize : Nat := 8192
def eqSize : Nat := 4096
def lqSize : Nat := 8192

/-- Entries in a ring (R424). -/
def Ring.fill (r : Ring) : Nat := (r.tail - r.head).toNat

/-- A record that finds its ring full (R425): `max` bounds the drop counter. -/
def Ring.drop (r : Ring) (max : Nat) (g : BitVec 64) (core : Nat) : Ring :=
  { r with drops := satAdd max r.drops 1, gap := satAdd 4294967295 r.gap 1, gapGcnt := if r.gap == 0 then g else r.gapGcnt,
           gapCore := if r.gap == 0 then core else r.gapCore }

/-- Write a record to the completion ring, or drop it (R425). -/
def pushCq (w : Word) (s : State) : State :=
  let r := s.rings.cq
  if r.fill == cqSize then { s with rings.cq := r.drop 65535 s.gcnt 0 }
  else
    let s := writeWord (cqBase + r.tail.toNat % cqSize) w s
    dueVector 0 { s with rings.cq.tail := r.tail + 1 }

/-- Write a record to the event ring, or drop it (R425). -/
def pushEq (w : Word) (s : State) : State :=
  let r := s.rings.eq
  if r.fill == eqSize then { s with rings.eq := r.drop 65535 s.gcnt 0 }
  else
    let s := writeWord (eqBase + r.tail.toNat % eqSize) w s
    dueVector 1 { s with rings.eq.tail := r.tail + 1 }

/-- Write a record to the log ring, or drop it; a record that finds the ring full clears the trace mask (R425, R429). -/
def pushLq (w : Word) (core : Nat) (s : State) : State :=
  let r := s.rings.lq
  if r.fill == lqSize then { s with rings.lq := r.drop 4294967295 s.gcnt core, fw.traceMask := 0 }
  else
    let s := writeWord (lqBase + r.tail.toNat % lqSize) w s
    dueVector 2 { s with rings.lq.tail := r.tail + 1 }

/-! ## Events (R427, R514) -/

/-- The fields of an event record. -/
structure Event where
  code : Nat
  source : Nat
  job : BitVec 16 := 0xFFFF
  service : Nat := 0
  a : Nat := 0
  b : Nat := 0
  value : Nat := 0
  gcnt : Nat
  lpos : Nat
  late : Bool := false
  deriving DecidableEq, Repr

/-- An event that occurs now, at the present machine position. -/
def State.event (s : State) (code source : Nat) : Event := { code := code, source := source, gcnt := s.now, lpos := s.line.m.toNat }

/-- The record of R427. -/
def Event.word (e : Event) : Word :=
  Machine.word (at_ e.code 0 16 ||| at_ e.source 16 8 ||| at_ e.job.toNat 32 16 ||| at_ e.service 48 8 ||| at_ e.a 64 16 |||
    at_ e.b 80 16 ||| at_ e.value 96 32 ||| at_ e.gcnt 128 64 ||| at_ e.lpos 192 48 ||| at_ (b2n e.late) 240 1)

/-- Write an event record. -/
def writeEvent (e : Event) (s : State) : State := pushEq e.word s

/-- After a HEAD write of the EQ: one marker for the records dropped (R425). -/
def eqMarker (s : State) : State :=
  let r := s.rings.eq
  if r.gap == 0 || r.fill == eqSize then s
  else
    writeEvent { s.event 0x0C05 94 with value := r.gap, gcnt := r.gapGcnt.toNat } { s with rings.eq.gap := 0 }

/-- A log record of R428. -/
def logWord (kind core level message gcnt arg0 arg1 arg2 arg3 : Nat) : Word :=
  word (at_ kind 0 2 ||| at_ core 2 2 ||| at_ level 4 4 ||| at_ message 16 16 ||| at_ gcnt 32 64 ||| at_ arg0 96 32 |||
    at_ arg1 128 32 ||| at_ arg2 160 32 ||| at_ arg3 192 64)

/-- After a HEAD write of the LQ: one DROP record (R425, R428). -/
def lqMarker (s : State) : State :=
  let r := s.rings.lq
  if r.gap == 0 || r.fill == lqSize then s
  else pushLq (logWord 2 r.gapCore 0 0x0C05 r.gapGcnt.toNat r.gap 0 0 0) r.gapCore { s with rings.lq.gap := 0 }

/-! ## Completion records (R88) -/

/-- The fields of a completion record. -/
structure Completion where
  status : Status := .ok
  vary : Bool := false
  reason : Nat := 0
  job : BitVec 16 := 0xFFFF
  service : Nat := 0
  entry : Nat := 0xFFFF
  a : Nat := 0
  b : Nat := 0
  digest : Nat := 0
  deriving DecidableEq, Repr

/-- The completion that a failed check gives. -/
def Fail.completion (f : Fail) (job : BitVec 16 := 0xFFFF) (service : Nat := 0) : Completion :=
  { status := f.status, reason := f.reason, job := job, service := service, entry := f.entry, a := f.detailA, b := f.detailB }

/-- The record of R88 of a completion at a Global Counter value. -/
def Completion.word (c : Completion) (g : BitVec 64) : Word :=
  Machine.word (at_ c.status.code 0 8 ||| at_ (b2n c.vary) 8 1 ||| at_ c.reason 16 16 ||| at_ c.job.toNat 32 16 |||
    at_ c.service 48 8 ||| at_ c.entry 64 16 ||| at_ c.a 80 16 ||| at_ c.b 96 16 ||| at_ g.toNat 128 64 ||| at_ c.digest 192 64)

/-- Write the record of a completion at a Global Counter value to the completion ring. -/
def writeCompletionAt (g : BitVec 64) (c : Completion) (s : State) : State := pushCq (c.word g) s

/-- Write a completion record to the completion ring. -/
def writeCompletion (c : Completion) (s : State) : State := writeCompletionAt s.gcnt c s

/-- A mailbox of the device. -/
def State.box (s : State) (n : Nat) : Mailbox := nth s.mbx n {}

/-- Completion of a mailbox command, in the order of R422. -/
def completeMailbox (n : Nat) (c : Completion) (s : State) : State :=
  let w := c.word s.gcnt
  let s := { s with mbx := upd s.mbx n fun b => { b with result := w } }
  let s := pushCq w s
  let s := { s with mbx := upd s.mbx n fun b => { b with busy := false, done := true, started := false } }
  dueVector 4 s

end Sys2Proof.Machine
end

