-- ==== Sys2Proof/Machine/Operands.lean ====
section
/-!
DEFINITION. Instruction entries (R74), their operand references (R75) and the words they name; reading operands, writing outputs
with their digest (R478, R479) and the poison rule of R399.
-/

namespace Sys2Proof.Machine

open Sys2Proof

/-! ## Entries (R74) -/

/-- A 64-byte instruction entry. -/
abbrev Entry := BitVec 512

/-- A field of an entry. -/
def Entry.get (e : Entry) (lo len : Nat) : Nat := bits e.toNat lo len

def Entry.op (e : Entry) : Nat := Entry.get e 0 16
def Entry.vary (e : Entry) : Bool := e.getLsbD 16
def Entry.fence (e : Entry) : Bool := e.getLsbD 17
def Entry.complete (e : Entry) : Bool := e.getLsbD 18
def Entry.safety (e : Entry) : Bool := e.getLsbD 19
def Entry.waitEn (e : Entry) : Bool := e.getLsbD 20
def Entry.signalEn (e : Entry) : Bool := e.getLsbD 21
def Entry.ordered (e : Entry) : Bool := e.getLsbD 22
def Entry.priority (e : Entry) : Nat := Entry.get e 24 3
def Entry.flow (e : Entry) : Nat := Entry.get e 32 16
def Entry.waitSync (e : Entry) : Nat := Entry.get e 48 16
def Entry.signalSync (e : Entry) : Nat := Entry.get e 64 16
def Entry.waitLimit (e : Entry) : Nat := Entry.get e 80 16
def Entry.param (e : Entry) : Nat := Entry.get e 96 32

/-- An operand reference (R75). -/
structure OperandRef where
  buf : Nat
  access : Nat
  reserved : Nat
  offset : Nat
  length : Nat
  deriving DecidableEq, Repr

/-- Operand i of an entry. -/
def Entry.operand (e : Entry) (i : Nat) : OperandRef :=
  let o := Entry.get e (128 + 96 * i) 96
  ⟨bits o 0 16, bits o 16 2, bits o 18 14, bits o 32 32, bits o 64 32⟩

/-- LENGTH that means to the end of the buffer (R75). -/
def lengthToEnd : Nat := 0xFFFFFFFF

/-- Words of an operand in a buffer of `size` words (R75). -/
def OperandRef.words (o : OperandRef) (size : Nat) : Nat := if o.length == lengthToEnd then size - o.offset else o.length

/-- Successive words of memory: first key and number. -/
structure Span where
  key : Nat
  len : Nat
  deriving DecidableEq, Repr

/-- The whole of a buffer. -/
def Job.bufferSpan (j : Job) (h : Nat) : Option Span := (j.buffers[h]?).map fun b => ⟨b.base / 32, b.size⟩

/-- The words that operand i of an entry names in its job's buffers; none for an unused operand. -/
def Job.operandSpan (j : Job) (e : Entry) (i : Nat) : Option Span :=
  let o := Entry.operand e i
  if o.access == 0 then none
  else (j.buffers[o.buf]?).map fun b => ⟨b.base / 32 + o.offset, o.words b.size⟩

/-- The first `n` words of a span. -/
def Span.first (sp : Span) (n : Nat) : Span := ⟨sp.key, min n sp.len⟩

/-- A span from word `i` on. -/
def Span.from_ (sp : Span) (i : Nat) : Span := ⟨sp.key + i, sp.len - i⟩

/-- Read a span. -/
def readSpan (r : Requester) (sp : Span) (s : State) : State × List Got := readWords r sp.key sp.len s

/-! ## Requesters (R407) -/

/-- Requester number of an engine. -/
def Engine.requester : Engine → Nat
  | .workCore n => 5 + n.val
  | .panel _ => 69
  | .lane _ => 70
  | .tks _ => 71
  | .pse _ | .darn _ => 72
  | .tracer _ => 73
  | .seam => 74
  | .frameIntake _ => 75
  | .fieldPort _ => 76
  | .moveEngine n => 78 + n.val
  | .cc n => 1 + n.val
  | .lineTimer => 95

/-- The requester on whose behalf an item reads. -/
def Item.requester (it : Item) : Requester :=
  { num := (it.engine.map Engine.requester).getD 96, job := it.jobId, service := it.service }

/-! ## Results of items -/

/-- A result without details. -/
def done (status : Status := .ok) (reason : Nat := 0) (a b digest : Nat := 0) : Result :=
  { status := status, reason := BitVec.ofNat 16 reason, detailA := BitVec.ofNat 16 a, detailB := BitVec.ofNat 16 b,
    digest := BitVec.ofNat 64 digest }

/-- The result that a failed check gives an item. -/
def Fail.result (f : Fail) : Result := done f.status f.reason f.detailA f.detailB

/-- The result of an item that met an uncorrectable or poisoned word (R399). -/
def poisonedResult (digest : Nat := 0) : Result := done .poisoned 0x0A01 0 0 digest

/-- Change a work item. -/
def State.setItem (s : State) (id : Nat) (f : Item → Item) : State :=
  { s with shu.items := s.shu.items.map fun it => if it.id == id then f it else it }

/-- A work item. -/
def State.item? (s : State) (id : Nat) : Option Item := s.shu.items.find? (·.id == id)

/-- Record the result of a RUNNING item. -/
def setResult (id : Nat) (r : Result) (s : State) : State := s.setItem id fun it => { it with result := some r }

/-- The RUNNING item with an opcode that has no result yet, and its job. -/
def State.runningItem (s : State) (id op : Nat) : Option (Item × Job) :=
  match s.item? id with
  | some it =>
    if it.phase == .running && it.result == none && Entry.op it.entry == op then (s.jobIn it.slot).map fun j => (it, j) else none
  | none => none

/-- Run an operation on its item: the operation gives a result, or leaves the item running. -/
def runOp (id op : Nat) (f : Item → Job → State → State × Option Result) (s : State) : State :=
  match s.runningItem id op with
  | some (it, j) =>
    match f it j s with
    | (s', some r) => setResult id r s'
    | (s', none) => s'
  | none => s

/-! ## Outputs and digests (R479) -/

/-- Digest of words written at an offset of operand number `n`. -/
def digestGots (j : Job) (n off : Nat) (gs : List Got) : Nat :=
  digestOf j.digestKey.toNat ((List.range gs.length).zip gs |>.map fun (i, g) =>
    (2 ^ 48 * n + off + i, if g.bad then none else some g.data))

/-- Clean words. -/
def clean (ws : List Word) : List Got := ws.map fun w => ⟨w, false⟩

/-- `n` poisoned words. -/
def poisonGots (n : Nat) : List Got := List.replicate n ⟨0, true⟩

/-- Write the words of an output at an offset of an operand, and give their digest. -/
def writeOut (j : Job) (it : Item) (n off : Nat) (gs : List Got) (s : State) : State × Nat :=
  match j.operandSpan it.entry n with
  | some sp => (writeGots (sp.key + off) gs s, digestGots j n off gs)
  | none => (s, 0)

/-- An output whose every word carries the poison mark (R399): the item ends POISONED. -/
def poisonOut (j : Job) (it : Item) (n words : Nat) (s : State) : State × Option Result :=
  let (s, d) := writeOut j it n 0 (poisonGots words) s
  (s, some (poisonedResult d))

/-! ## What every copy of a Move Engine does (R401) -/

/-- The halt of a Move Engine at a word that it could not read; a GET of it that is pending is withdrawn (R401). -/
def haltEngine (n key : Nat) (s : State) : State :=
  raiseAlarm 0x0A07 n 0
    { s with me.halted := s.me.halted ||| BitVec.ofNat 16 (2 ^ n), me.haltAddr := s.me.haltAddr.set n (keyAddr key)
             shu.gets := s.shu.gets.filter fun e => match e with | .moveEngine m => m.val != n | _ => true }

/-- Copy words from the source keys to successive destination words, until a source word cannot be read; gives the words written
and the key that stopped it. -/
def moveWords (r : Requester) (dst : Nat) : List Nat → State → State × List Got × Option Nat
  | [], s => (s, [], none)
  | k :: t, s =>
    let (s, g) := readWord r k s
    if g.bad then (s, [], some k)
    else
      let s := writeWord dst g.data s
      let (s, gs, e) := moveWords r (dst + 1) t s
      (s, g :: gs, e)

end Sys2Proof.Machine
end

