-- ==== Sys2Proof/Machine/Shuttle.lean ====
section
/-!
DEFINITION. The Shuttle (file 04): admission (R92, R108), sync objects (R98), waiting (R102), the ready list and GET (R103 to R105),
ordered flows (R106, R107), pools (R109, R110) and cancellation (R112).
-/

namespace Sys2Proof.Machine

open Sys2Proof

/-! ## Engine classes (R78, R104, R109) -/

/-- The class of engine or instance that takes an item.  `shuttle`: NOP, SIGNAL and WAIT complete at the Shuttle itself (R101). -/
inductive EngineClass where
  | shuttle | workCore | tensor | pse | tks | seam | lineTimer
  | lane (n : Nat)
  | darn (slot : Nat)
  | tracer (unit : Nat)
  | moveEngine (n : Nat)
  | fieldPort (n : Nat)
  | frameIntake (n : Nat)
  | cc
  | cc2
  deriving DecidableEq, Repr

/-- The SHEET_LOOP block of a job (R337). -/
def Job.sheetBlock (j : Job) : Option Block := j.blockOf 0x14

/-- The class of an entry of a service of a job (R78; CORRECTION_SEND with DEST RING runs on FP0, assumption log 9). The
Tracer's items run on three units, each with its own ready order (DESIGN CHOICE, assumption log 97). -/
def entryClass (j : Job) (service : Nat) (e : Entry) : EngineClass :=
  let p := Entry.param e
  match Entry.op e with
  | 0x0102 | 0x0301 => .cc
  | 0x0203 | 0x0204 => .lineTimer
  | 0x0302 => .tracer 0
  | 0x0303 => .tracer 1
  | 0x0304 => .tracer 2
  | 0x0401 => .pse
  | 0x0402 => .darn (((j.service service).map (·.field 5)).getD 0)
  | 0x0501 | 0x0502 | 0x0503 | 0x0504 => .lane (p % 8)
  | 0x0601 | 0x0602 => .tensor
  | 0x0701 | 0x0702 => .tks
  | 0x0801 | 0x0802 => .frameIntake (p % 4)
  | 0x0803 => .frameIntake ((j.sheetBlock.map (·.field 0)).getD 0)
  | 0x0901 | 0x0C01 => .workCore
  | 0x0902 | 0x0903 => .seam
  | 0x0A01 | 0x0A02 | 0x0A03 => .moveEngine (p % 16)
  | 0x0B01 => .fieldPort (p % 4)
  | 0x0B02 => .fieldPort (((j.sheetBlock.map (·.field 10)).getD 0) % 4)
  | 0x0B03 => .cc2
  | _ => .shuttle

/-- The class of an item. -/
def State.itemClass (s : State) (it : Item) : EngineClass :=
  match s.jobIn it.slot with
  | some j => entryClass j it.service it.entry
  | none => .shuttle

/-- The class whose reserved share an item draws on: instances of one class share it where R109 gives one share. -/
def EngineClass.share : EngineClass → EngineClass
  | .darn _ => .darn 0
  | .tracer _ => .tracer 0
  | .cc2 => .cc
  | c => c

/-- Ready and matching entries of a reserved share (R109). -/
def EngineClass.shares : EngineClass → Nat × Nat
  | .workCore => (256, 1024)
  | .tensor => (64, 256)
  | .lane _ => (8, 64)
  | .pse => (64, 512)
  | .darn _ => (16, 64)
  | .tks => (64, 256)
  | .tracer _ => (32, 128)
  | .seam => (64, 256)
  | .moveEngine _ => (8, 16)
  | .fieldPort _ => (16, 64)
  | .frameIntake _ => (8, 32)
  | .cc | .cc2 => (144, 384)
  | .lineTimer => (32, 64)
  | .shuttle => (0, 0)

/-- Does an engine take the items of a class?  PEER_COLLECTIVE runs on CC2, or on any ready core while CC2 is held (R434, R435). -/
def engineTakes (s : State) : Engine → EngineClass → Bool
  | .workCore _, .workCore => true
  | .panel _, .tensor => true
  | .lane n, .lane m => n.val == m
  | .pse _, .pse => true
  | .darn n, .darn m => n.val == m
  | .tks _, .tks => true
  | .tracer n, .tracer m => n.val == m
  | .seam, .seam => true
  | .moveEngine n, .moveEngine m => n.val == m
  | .fieldPort n, .fieldPort m => n.val == m
  | .frameIntake n, .frameIntake m => n.val == m
  | .cc _, .cc => true
  | .cc n, .cc2 => n.val == 2 || s.fw.held.getLsbD 2
  | .lineTimer, .lineTimer => true
  | _, _ => false

/-! ## Pools (R108 to R110) -/

/-- General ready and matching entries in use. -/
def State.generalReady (s : State) : Nat := (s.shu.items.filter (·.pool == .generalReady)).length
def State.generalMatch (s : State) : Nat := (s.shu.items.filter (·.pool == .generalMatch)).length

/-- Entries of a class's share in use. -/
def State.shareUse (s : State) (p : Pool) (c : EngineClass) : Nat :=
  (s.shu.items.filter fun it => it.pool == p && (s.itemClass it).share == c.share).length

/-- A ready entry for an item of a class: general first, then the share (R110). -/
def State.readyEntry (s : State) (c : EngineClass) : Option Pool :=
  if s.generalReady < 3072 then some .generalReady
  else if s.shareUse .shareReady c < c.shares.1 then some .shareReady
  else none

/-- A matching entry for a parked item of a class (R110). -/
def State.matchEntry (s : State) (c : EngineClass) : Option Pool :=
  if s.generalMatch < 12288 then some .generalMatch
  else if s.shareUse .shareMatch c < c.shares.2 then some .shareMatch
  else none

/-- Peak fills since arm. -/
def notePeaks (s : State) : State :=
  { s with shu.peakReady := max s.shu.peakReady s.generalReady, shu.peakMatch := max s.shu.peakMatch s.generalMatch }

/-! ## Ready items and dispatch (R103 to R105) -/

/-- The kernel that an item needs on a Work Core: PARAM, or the channel B kernel (assumption log 10). -/
def channelBKernel : Reg := 0xFFFFFFFF

def kernelOf (e : Entry) : Reg := if Entry.op e == 0x0C01 then BitVec.ofNat 32 (Entry.param e) else channelBKernel

/-- Order of choice among READY items (R103). -/
def chosenBefore (a b : Item) : Bool :=
  if a.priority != b.priority then a.priority < b.priority
  else if Entry.safety a.entry != Entry.safety b.entry then Entry.safety a.entry
  else a.order < b.order

/-- The epoch whose read gate is open (R188). -/
def State.openGate (s : State) : Option Epoch :=
  match s.occ.applied with
  | some e => if s.trc.gate == some e.number then some e else none
  | none => none

/-- An engine starts an item: it is RUNNING from now on. -/
def dispatchTo (e : Engine) (id : Nat) (s : State) : State :=
  let s := s.setItem id fun it => { it with phase := .running, pool := .none, engine := some e, started := s.now, epoch := s.openGate }
  { s with shu.gets := s.shu.gets.filter (· != e), shu.dispatched := satAdd (2 ^ 64 - 1) s.shu.dispatched 1 }

/-- The pending GET that a READY item goes to: for a Work Core, one that holds the kernel, else the longest waiting (R104, R105). -/
def chooseGet (s : State) (it : Item) : Option Engine :=
  let c := s.itemClass it
  let able := s.shu.gets.filter fun e => engineTakes s e c
  match c with
  | .workCore =>
    let holds (e : Engine) : Bool := match e with
      | .workCore n => s.shu.kernels.any fun (m, k) => m == n.val && k == kernelOf it.entry
      | _ => false
    match able.find? holds with
    | some e => some e
    | none => able.head?
  | .tensor => none
  | _ => able.head?

/-- P_t of a Tensor item: the TILING of its network, or the value of R287 for MATMUL. -/
def tensorTiling (s : State) (it : Item) : Nat :=
  match s.jobIn it.slot with
  | some j =>
    if Entry.op it.entry == 0x0602 then (if s.grade == .ft9_64I && !j.reproducible then 16 else 12)
    else ((j.networks.find? (·.netId == Entry.param it.entry % 64)).map (·.tiling)).getD 12
  | none => 12

/-- The width that a Tensor item asks for: w of its PARAM, or of the parameter block of MATMUL as memory gives it (R300, R389). -/
def tensorAsked (s : State) (it : Item) : Nat :=
  if Entry.op it.entry == 0x0602 then
    match s.jobIn it.slot with
    | some j => (match j.operandSpan it.entry 0 with
      | some sp => (match s.peek sp.key with | some w => Word.get w 112 5 | none => 0)
      | none => 0)
    | none => 0
  else bits (Entry.param it.entry) 26 5

/-- Panels needed by a Tensor item: its width, 0 meaning P_t, reduced to the panels in service (R287, R288). -/
def tensorWidth (s : State) (it : Item) : Nat :=
  let pt := tensorTiling s it
  let w := tensorAsked s it
  let present := if s.grade == .ft9_64I then 16 else 12
  let out := ((List.range present).filter fun n => s.te.excluded.getLsbD n || s.sm.excluded.contains (.panel, n)).length
  min (if w == 0 || pt < w then pt else w) (present - out)

/-- Pass the pending GETs of panels to Tensor items: one item gathers panels until it holds its width (R288). -/
def tensorDispatch (s : State) : State :=
  let gathering := s.shu.items.find? fun it => it.phase == .ready && s.shu.panels.any (·.2 == it.id)
  let ready := s.shu.items.filter fun it => it.phase == .ready && s.itemClass it == .tensor
  match (match gathering with | some it => some it | none => minBy chosenBefore ready) with
  | none => s
  | some it =>
    let free := s.shu.gets.filterMap fun e => match e with | .panel n => some n.val | _ => none
    let have_ := (s.shu.panels.filter (·.2 == it.id)).length
    let w := tensorWidth s it
    let take := free.take (w - have_)
    let s := { s with
      shu.panels := s.shu.panels ++ take.map fun n => (n, it.id)
      shu.gets := s.shu.gets.filter fun e => match e with | .panel n => !take.contains n.val | _ => true }
    let held := (s.shu.panels.filter (·.2 == it.id)).map (·.1)
    if held.length < w || w == 0 then s
    else
      let first := held.foldl min 16
      dispatchTo (.panel (Fin.ofNat 16 first)) it.id s

/-- Give a READY item to a pending GET, if one takes it (R104). -/
def dispatchItem (id : Nat) (s : State) : State :=
  match s.item? id with
  | some it =>
    if it.phase != .ready then s
    else if s.itemClass it == .tensor then tensorDispatch s
    else match chooseGet s it with
      | some e => dispatchTo e id s
      | none => s
  | none => s

/-- Completions kept at engines take matching entries that have become free (R110). -/
def acceptKept (s : State) : State :=
  (s.shu.items.filter (·.phase == .kept)).foldl (fun s it =>
    match s.matchEntry (s.itemClass it) with
    | some p => s.setItem it.id fun x => { x with phase := .parked, pool := p, engine := none }
    | none => s) s

/-- A RELEASED item becomes READY where an entry is free, which frees its matching entry for a kept completion (R110); it goes to a pending GET
at once (R104). -/
def makeReady (id : Nat) (s : State) : State :=
  match s.item? id with
  | some it =>
    if it.phase != .released then s
    else match s.readyEntry (s.itemClass it) with
      | some p =>
        let s := s.setItem id fun it => { it with phase := .ready, pool := p, order := s.shu.nextOrder }
        dispatchItem id (notePeaks (acceptKept { s with shu.nextOrder := s.shu.nextOrder + 1 }))
      | none => s
  | none => s

/-- The RELEASED items take the ready entries that are free, in release order (R110). -/
def releasedReady (s : State) : State :=
  (sortBy (fun a b => a.order < b.order) (s.shu.items.filter (·.phase == .released))).foldl (fun s it => makeReady it.id s) s

/-- The release of a WAITING item: RELEASED, then READY if an entry is left for it behind the items released before; a deferral is counted (R110). -/
def releaseWaiting (id : Nat) (s : State) : State :=
  let s := s.setItem id fun it => { it with phase := .released, order := s.shu.nextOrder }
  let s := releasedReady { s with shu.nextOrder := s.shu.nextOrder + 1 }
  match s.item? id with
  | some it => if it.phase == .released then { s with shu.deferred := satAdd 65535 s.shu.deferred 1 } else s
  | none => s

/-! ## FENCE (R74, R102) -/

/-- An item that has not completed at its engine. -/
def Item.incomplete (it : Item) : Bool :=
  match it.phase with
  | .waiting | .released | .ready | .running => true
  | .kept | .parked => false

/-- The same triggering of the same list. -/
def Item.sameTriggering (a b : Item) : Bool :=
  a.slot == b.slot && a.service == b.service && a.list == b.list && a.trig == b.trig

/-- The FENCE condition: every earlier entry of the same triggering has completed. -/
def State.fenceMet (s : State) (it : Item) : Bool :=
  !Entry.fence it.entry || s.shu.items.all fun x => !(x.sameTriggering it && x.index < it.index && x.incomplete)

/-- Every condition of a WAITING item is met. -/
def State.mayRelease (s : State) (it : Item) : Bool :=
  it.phase == .waiting && (it.synced || !Entry.waitEn it.entry) && s.fenceMet it

/-- Release every WAITING item whose conditions have come to hold, in the order of their admission. -/
def releaseFenced (s : State) : State :=
  (s.shu.items.filter (s.mayRelease ·)).foldl (fun s it => releaseWaiting it.id s) s

/-! ## Signals of items, the sheet and the golden pass (R99, R339, R345) -/

/-- The statuses that signal (R99). -/
def Status.signals : Status → Bool
  | .ok | .deadlineBest | .noFreshPath | .disagree | .poisoned => true
  | .refused | .timeout | .aborted => false

/-- Send a signal to the Shuttle's queue (R97). -/
def sendSignal (m : SignalMsg) (s : State) : State := { s with shu.signals := s.shu.signals ++ [m] }

/-- The signal of an item to an object. -/
def Item.signal (it : Item) (obj inc : Nat) (item : Option Nat := none) : SignalMsg :=
  { obj := obj, inc := inc, tag := it.tag, sheet := it.sheet, golden := it.golden, firing := none, item := item }

/-- Mark a sheet by the end of one of its items (R339, R341). -/
def markSheet (it : Item) (r : Result) (s : State) : State :=
  match it.sheet with
  | none => s
  | some sh =>
    if r.status == .ok || r.status == .deadlineBest || it.golden then s
    else
      let noFrame := r.status == .timeout && Entry.op it.entry == 0x0801
      let old : SheetMark := (s.sheet.marks.find? (·.sheet == sh)).getD ⟨sh, false, false, false⟩
      let new : SheetMark :=
        { old with faulted := old.faulted || !noFrame, poisoned := old.poisoned || r.status == .poisoned,
                   noFrame := old.noFrame || noFrame }
      { s with sheet.marks := s.sheet.marks.filter (·.sheet != sh) ++ [new] }

/-- The end of a golden pass with one of its items (R345). -/
def markGolden (it : Item) (r : Result) (s : State) : State :=
  if !(it.golden && s.sheet.pass) then s
  else
    let bad := r.status != .ok && r.status != .deadlineBest
    let last := Entry.op it.entry == 0x0B02
    if !bad && !last then s
    else if bad || s.sheet.passFailed then
      raiseAlarm 0x0807 0 0 { s with sheet.pass := false, sheet.passFailed := false, sheet.frozen := true,
                                     sheet.fails := satAdd 65535 s.sheet.fails 1 }
    else
      { s with sheet.pass := false, sheet.sheetsSince := 0, sheet.frozen := false, sheet.passes := satAdd 65535 s.sheet.passes 1 }

/-! ## Completion and ordered release (R107, R110) -/

/-- The completion record of an entry (R88). -/
def Item.completion (it : Item) (r : Result) : Completion :=
  { status := r.status, vary := Entry.vary it.entry, reason := r.reason.toNat, job := it.jobId, service := it.service,
    entry := it.index, a := r.detailA.toNat, b := r.detailB.toNat, digest := r.digest.toNat }

/-- The flow of an item, when it is ORDERED. -/
def State.flowOf (s : State) (it : Item) : Option Flow := s.shu.flows.find? (·.flow == Entry.flow it.entry)

/-- The release of a completed item: its signal, its record, which names the Global Counter of the completion (R88), and its move to DONE (R107). -/
def releaseEffects (it : Item) (r : Result) (s : State) : State :=
  let s := if Entry.signalEn it.entry && r.status.signals then sendSignal (it.signal (Entry.signalSync it.entry) 1) s else s
  let s := if r.status != .ok || Entry.complete it.entry then writeCompletionAt it.ended (it.completion r) s else s
  let s : State := if Entry.ordered it.entry then
      { s with shu.flows := s.shu.flows.map fun f => if f.flow == Entry.flow it.entry then { f with release := f.release + 1 } else f }
    else s
  { s with shu.items := s.shu.items.filter (·.id != it.id) }

/-- The parked or kept successor whose turn has come in a flow. -/
def State.nextParked (s : State) (flow : Nat) : Option Item :=
  match s.shu.flows.find? (·.flow == flow) with
  | none => none
  | some f => s.shu.items.find? fun it =>
      Entry.ordered it.entry && Entry.flow it.entry == flow && it.flowSeq == f.release &&
        (it.phase == .parked || it.phase == .kept)

/-- Release the successors of a flow in sequence (R107); `n` bounds their number. -/
def releaseSuccessors : Nat → Nat → State → State
  | 0, _, s => s
  | n + 1, flow, s =>
    match s.nextParked flow with
    | some it => (match it.result with
      | some r => releaseSuccessors n flow (releaseEffects it r s)
      | none => s)
    | none => s

/-- An item has completed with a result, or with the abort recorded in its place (R112): release it, or park it behind its predecessors (R107,
R110). -/
def endItem (id : Nat) (r : Result) (s : State) : State :=
  match s.item? id with
  | none => s
  | some it =>
    let r := it.aborted.getD r
    let it := { it with result := some r, ended := s.gcnt }
    let s := s.setItem id fun x => { x with result := some r, ended := s.gcnt }
    let s := { s with shu.panels := s.shu.panels.filter (·.2 != id) }
    let s := markGolden it r (markSheet it r s)
    let turn := !Entry.ordered it.entry ||
      (match s.flowOf it with | some f => f.release == it.flowSeq | none => true)
    let s : State := if turn then
        let s := releaseEffects it r s
        if Entry.ordered it.entry then releaseSuccessors s.shu.items.length (Entry.flow it.entry) s else s
      else if it.pool == .generalMatch || it.pool == .shareMatch then
        s.setItem id fun x => { x with phase := .parked, engine := none }
      else match s.matchEntry (s.itemClass it) with
        | some p => s.setItem id fun x => { x with phase := .parked, pool := p, engine := none }
        | none =>
          let s := s.setItem id fun x => { x with phase := .kept, pool := .none }
          { s with shu.keptCount := satAdd 65535 s.shu.keptCount 1 }
    s

/-- What the end of items frees: matching entries for kept completions, FENCE conditions, and ready entries for RELEASED items (R102, R110).  The
Tensor item that gathers panels starts where a panel that the ended item took out of service has reduced its width (R288, R293). -/
def afterEnds (s : State) : State := tensorDispatch (notePeaks (releasedReady (releaseFenced (acceptKept s))))

/-- An item completes, and what it frees is taken up. -/
def completeItem (id : Nat) (r : Result) (s : State) : State := if (s.item? id).isSome then afterEnds (endItem id r s) else s

/-- An item that is not RUNNING, and has not completed, can be ended without running it (R102, R112). -/
def Item.cancellable (it : Item) : Bool :=
  match it.phase with
  | .waiting | .released | .ready => true
  | .running | .kept | .parked => false

/-- End an item that is not RUNNING, without running it (R102, R112). -/
def cancelItem (id : Nat) (r : Result) (s : State) : State :=
  match s.item? id with
  | none => s
  | some it => if it.cancellable then completeItem id r s else s

/-- The work items that a test selects are removed together, in admission order; only then is what they free taken up (R112). -/
def cancelWhere (p : Item → Bool) (r : Result) (s : State) : State :=
  afterEnds ((s.shu.items.filter fun it => p it && it.cancellable).foldl (fun s it => endItem it.id r s) s)

/-- A RUNNING item whose completion is to be recorded with an abort (R112): it runs on under its own rules, but a STITCH ends where it stands, since
nothing of it may be released. -/
def abortRunning (id : Nat) (r : Result) (s : State) : State :=
  s.setItem id fun it =>
    if it.phase == .running then
      { it with aborted := some r, result := if Entry.op it.entry == 0x0902 then some r else it.result }
    else it

/-! ## Triggerings and admission (R92, R94, R106, R108) -/

/-- A list loaded for a service of a job. -/
def Job.list? (j : Job) (service number : Nat) : Option InstrList :=
  j.lists.find? fun l => l.service == service && l.number == number

/-- The tag of the most recent control-cycle firing; 0 before any (R94). -/
def State.latestTag (s : State) : Reg := match s.shu.cycles with | c :: _ => c.tag | [] => 0

/-- The next triggering number of a list (R92). -/
def Job.nextTrig (j : Job) (service list : Nat) : BitVec 32 :=
  match j.triggered.find? fun (a, b, _) => a == service && b == list with
  | some (_, _, n) => n
  | none => 0

/-- Count a triggering of a list. -/
def Job.countTrig (j : Job) (service list : Nat) : Job :=
  { j with triggered := (service, list, j.nextTrig service list + 1) ::
      j.triggered.filter fun (a, b, _) => !(a == service && b == list) }

/-- The priority that the map in force gives an entry (R489). -/
def Job.priorityOf (j : Job) (service p : Nat) : Nat :=
  match j.priorities.find? (·.service == service) with
  | some m => (match m.current with | some v => bits v.toNat (3 * p) 3 | none => p)
  | none => p

/-- The Shuttle section word of a service (R95). -/
def Job.section_ (j : Job) (service : Nat) : Nat := ((j.service service).map (·.word 1)).getD 0

/-- Wait limit of an entry in µs: its own, or the service default (R76). -/
def Job.waitLimit (j : Job) (service : Nat) (e : Entry) : Nat :=
  if Entry.waitLimit e == 0 then bits (j.section_ service) 128 16 else Entry.waitLimit e

/-- A triggering counts as one of GOLD_LIST of the SHEET_LOOP service (R345). -/
def Job.isGoldList (j : Job) (service list : Nat) : Bool :=
  match j.sheetBlock with
  | some b => b.service == service && b.field 7 == list
  | none => false

/-- A triggering counts as one of MAIN_LIST (R339). -/
def Job.isMainList (j : Job) (service list : Nat) : Bool :=
  match j.sheetBlock with
  | some b => b.service == service && b.field 6 == list
  | none => false

/-- ORDERED entries of a list in a flow. -/
def flowEntries (es : List Entry) (flow : Nat) : Nat := (es.filter fun e => Entry.ordered e && Entry.flow e == flow).length

/-- Items of a flow admitted and not DONE (R106). -/
def State.flowWindow (s : State) (flow : Nat) : Nat :=
  (s.shu.items.filter fun it => Entry.ordered it.entry && Entry.flow it.entry == flow).length

/-- The admission test of R108: the reason of the first failing condition, and whether it was condition 4. -/
def admissionFail (s : State) (es : List Entry) (host : Bool) : Option (Nat × Bool) :=
  let waits := (es.filter fun e => Entry.waitEn e || Entry.fence e).length
  let readies := es.length - waits
  let r := s.generalReady + readies
  let m := s.generalMatch + waits
  if r > 3072 then some (0x0201, false)
  else if m > 12288 then some (0x0202, false)
  else if es.any fun e => Entry.ordered e && s.flowWindow (Entry.flow e) + flowEntries es (Entry.flow e) > 256 then
    some (0x0203, false)
  else if host && r > 2048 then some (0x0201, true)
  else if host && m > 8192 then some (0x0202, true)
  else none

/-- The sequence number that an ORDERED entry takes in its flow (R106). -/
def takeFlow (flow : Nat) (s : State) : State × Nat :=
  match s.shu.flows.find? (·.flow == flow) with
  | some f =>
    ({ s with shu.flows := s.shu.flows.map fun x => if x.flow == flow then { x with next := x.next + 1 } else x }, f.next)
  | none => ({ s with shu.flows := s.shu.flows ++ [⟨flow, 1, 0⟩] }, 0)

/-- Admit one entry as a work item (R91). -/
def admitEntry (slot : Nat) (j : Job) (t : Triggering) (trig : BitVec 32) (index : Nat) (e : Entry) (s : State) : State :=
  let (s, seq) := if Entry.ordered e then takeFlow (Entry.flow e) s else (s, 0)
  let waits := Entry.waitEn e || Entry.fence e
  let it : Item :=
    { id := s.shu.nextItem, slot := slot, jobId := j.id, service := t.service, list := t.list, index := index, entry := e,
      trig := trig, tag := t.tag, sheet := t.sheet, golden := t.golden || j.isGoldList t.service t.list,
      priority := j.priorityOf t.service (Entry.priority e), phase := if waits then .waiting else .ready,
      pool := if waits then .generalMatch else .generalReady, synced := false, admitted := s.now,
      limit := j.waitLimit t.service e, flowSeq := seq, order := s.shu.nextOrder, engine := none, started := 0,
      result := none }
  { s with shu.items := s.shu.items ++ [it], shu.nextItem := s.shu.nextItem + 1, shu.nextOrder := s.shu.nextOrder + 1 }

/-- Admit the entries of a triggering in ascending index. -/
def admitEntries (slot : Nat) (j : Job) (t : Triggering) (trig : BitVec 32) : Nat → List Entry → State → State
  | _, [], s => s
  | i, e :: es, s => admitEntries slot j t trig (i + 1) es (admitEntry slot j t trig i e s)

/-- Give every READY item to a pending GET, in the order of choice of R103. -/
def dispatchAll (s : State) : State :=
  (sortBy chosenBefore (s.shu.items.filter (·.phase == .ready))).foldl (fun s it => dispatchItem it.id s) s

/-- A refusal on a planning channel's list is the reason of the hold that follows (R111, R221). -/
def noteRefusal (j : Job) (t : Triggering) (reason : Nat) (s : State) : State :=
  match j.service t.service with
  | some b =>
    if b.serviceType == 0x11 then
      { s with chans := upd s.chans (b.field 0) fun c => { c with holdReason := some (t.tag, BitVec.ofNat 16 reason) } }
    else s
  | none => s

/-- A refused triggering (R108). -/
def refuseTriggering (j : Job) (t : Triggering) (reason : Nat) (fourth : Bool) (s : State) : State :=
  let s := noteRefusal j t reason s
  let s := { s with
    shu.lastRefusal := BitVec.ofNat 16 reason
    shu.refusedReady := if reason == 0x0201 then satAdd 65535 s.shu.refusedReady 1 else s.shu.refusedReady
    shu.refusedMatch := if reason == 0x0202 then satAdd 65535 s.shu.refusedMatch 1 else s.shu.refusedMatch
    shu.refusedFlow := if reason == 0x0203 then satAdd 65535 s.shu.refusedFlow 1 else s.shu.refusedFlow
    shu.refusedHost := if fourth then satAdd 65535 s.shu.refusedHost 1 else s.shu.refusedHost }
  writeCompletion { status := .refused, reason := reason, job := j.id, service := t.service, a := t.list } s

/-- A triggering is admitted whole or refused whole (R92, R108), behind the RELEASED items that ready entries have become free for (R110).
Triggerings of a job that is not RUNNING start nothing (R67). -/
def startList (host : Bool) (t : Triggering) (s : State) : State :=
  let s := releasedReady s
  match s.runningJob with
  | none => s
  | some (slot, j) =>
    match j.list? t.service t.list with
    | none => s
    | some l =>
      match admissionFail s l.entries host with
      | some (reason, fourth) => refuseTriggering j t reason fourth s
      | none =>
        let trig := j.nextTrig t.service t.list
        let s := s.setJob slot (·.countTrig t.service t.list)
        let s := admitEntries slot j t trig 0 l.entries s
        notePeaks (releaseFenced (dispatchAll (notePeaks s)))

/-! ## Firing a sync object (R98) -/

/-- A firing releases the items that wait on the object now. -/
def releaseWaiters (obj : Nat) (s : State) : State :=
  let waiters := s.shu.items.filter fun it =>
    it.phase == .waiting && Entry.waitEn it.entry && !it.synced && Entry.waitSync it.entry == obj
  waiters.foldl (fun s it =>
    let s := s.setItem it.id fun x => { x with synced := true }
    match s.item? it.id with
    | some x => if s.mayRelease x then releaseWaiting it.id s else s
    | none => s) s

/-- The triggering that a firing with TRIGGER_EN makes; its tag and sheet are those of the signal (R94, R339). -/
def triggeringOf (o : SyncObj) (m : SignalMsg) (j : Job) : Triggering :=
  { service := o.service, list := o.list, tag := m.tag, golden := m.golden,
    sheet := match m.firing with
      | some f => if j.isMainList o.service o.list || j.isGoldList o.service o.list
          then some (BitVec.ofNat 32 (f.key.toNat / 65536)) else none
      | none => m.sheet }

/-! ## Engines that may ask for work -/

/-- The self-test class and instance of an engine (R369). -/
def engineTestInst : Engine → Option (TestClass × Nat)
  | .workCore n => some (.workCore, n.val)
  | .panel n => some (.panel, n.val)
  | .lane n => some (.lane, n.val)
  | .pse n => some (.pse, n.val)
  | .darn n => some (.darn, n.val)
  | .tks n => some (.tks, n.val)
  | .seam => some (.seam, 0)
  | _ => none

/-- Is an engine present in the grade (R2)? -/
def enginePresent (s : State) : Engine → Bool
  | .workCore n => s.grade == .ft9_64I || n.val < 48
  | .panel n => s.grade == .ft9_64I || n.val < 12
  | _ => true

/-- An engine runs an item, holds one for a Tensor item, or keeps a completion (R104, R110). -/
def State.engineBusy (s : State) (e : Engine) : Bool :=
  s.shu.items.any (fun it => it.engine == some e && (it.phase == .running || it.phase == .kept)) ||
    (match e with | .panel n => s.shu.panels.any (·.1 == n.val) | _ => false)

/-- A self-test slice runs on an engine: on its own instance, or on a Tracer group for the Tracer (R371). -/
def State.engineTested (s : State) (e : Engine) : Bool :=
  match e with
  | .tracer _ => s.sm.running.any fun r => r.slice.cls == .tracerGroup
  | e => match engineTestInst e with
    | some (c, n) => s.sm.running.any fun r => r.slice.cls == c && r.slice.inst.val == n
    | none => false

/-- An engine is excluded from dispatch (R293, R373, R400), halted (R401), or a core that is not ready (R435). -/
def State.engineOut (s : State) (e : Engine) : Bool :=
  (match engineTestInst e with | some x => s.sm.excluded.contains x | none => false) ||
  (match e with
   | .workCore n => s.sm.excludedCores.contains n.val
   | .panel n => s.te.excluded.getLsbD n.val
   | .moveEngine n => s.me.halted.getLsbD n.val
   | .cc n => s.fw.held.getLsbD n.val || !s.fw.ready.getLsbD n.val
   | .fieldPort _ | .frameIntake _ | .lineTimer | .lane _ | .pse _ | .darn _ | .tks _ | .tracer _ | .seam => false)

/-- An engine may issue a GET. -/
def State.mayGet (s : State) (e : Engine) : Bool :=
  s.power == .on && enginePresent s e && !s.engineBusy e && !s.engineTested e && !s.engineOut e

/-- The READY item that an asking engine is given (R103). -/
def bestFor (e : Engine) (s : State) : Option Item :=
  minBy chosenBefore (s.shu.items.filter fun it => it.phase == .ready && engineTakes s e (s.itemClass it))

/-- GET: the eligible item by priority, or left pending (R104). -/
def engineGet (e : Engine) (s : State) : State :=
  if !s.mayGet e || s.shu.gets.contains e then s
  else match e with
    | .panel _ => tensorDispatch { s with shu.gets := s.shu.gets ++ [e] }
    | _ => match bestFor e s with
      | some it => dispatchTo e it.id s
      | none => { s with shu.gets := s.shu.gets ++ [e] }

end Sys2Proof.Machine
end

