-- ==== Sys2Proof/Machine/Run.lean ====
section
/-!
DEFINITION. Programs over the state that may end early with a status and reason: the form in which the longer operations are
written.  A failure keeps the state as it stands when it is met.
-/

namespace Sys2Proof.Machine

open Sys2Proof

/-- A program over the state that gives a value or fails. -/
abbrev Run (α : Type) := ExceptT Fail (StateM State) α

/-- Run a program: the state it leaves, and its value or failure. -/
def runProg {α : Type} (m : Run α) (s : State) : State × Except Fail α :=
  let r := (m.run).run s
  (r.2, r.1)

/-- Change the state. -/
def change (f : State → State) : Run Unit := modify f

/-- An operation on the state that gives a value. -/
def stateOp {α : Type} (f : State → State × α) : Run α := fun s => ((.ok (f s).2), (f s).1)

/-- A check on the state. -/
def checkOp {α : Type} (f : State → Check α) : Run α := fun s => (f s, s)

/-- A check that changes the state where it succeeds. -/
def tryOp (f : State → Check State) : Run Unit := fun s =>
  match f s with
  | .ok t => (.ok (), t)
  | .error e => (.error e, s)

/-- Fail with a reason unless the condition holds. -/
def ensure (c : Bool) (reason : Nat) (a b : Nat := 0) : Run Unit :=
  if c then pure () else throw { reason := reason, detailA := a, detailB := b }

/-- Fail as an item that met an uncorrectable or poisoned word (R399). -/
def poisoned {α : Type} (a b : Nat := 0) : Run α := throw { status := .poisoned, reason := 0x0A01, detailA := a, detailB := b }

/-- Read a word; a word that carries the poison mark fails with DETAIL_A `a`. -/
def getWord (r : Requester) (k : Nat) (a : Nat := 0) : Run Nat := do
  let g ← stateOp (readWord r k)
  if g.bad then poisoned a else pure g.data.toNat

/-- Read the words at the keys listed, in order. -/
def getKeys (r : Requester) (a : Nat := 0) : List Nat → Run (List Nat)
  | [] => pure []
  | k :: t => do
    let w ← getWord r k a
    let ws ← getKeys r a t
    pure (w :: ws)

/-- Read `n` successive words. -/
def getWords (r : Requester) (k n : Nat) (a : Nat := 0) : Run (List Nat) := getKeys r a ((List.range n).map (k + ·))

/-- Read successive words, each of them, and only then fail if one carries the poison mark (R141, R399). -/
def getAll (r : Requester) (k n : Nat) (a b : Nat := 0) : Run (List Word) := do
  let gs ← stateOp (readWords r k n)
  if anyBad gs then poisoned a b else pure (gotData gs)

/-- Write words at successive keys. -/
def putWords (k : Nat) (ws : List Word) : Run Unit := change (writeWords k ws)

/-- Run an item's program: its result, whatever way it ends. -/
def itemProg (m : Run Result) (s : State) : State × Option Result :=
  match runProg m s with
  | (s, .ok r) => (s, some r)
  | (s, .error f) => (s, some f.result)

end Sys2Proof.Machine
end

