-- ==== Sys2Proof/Machine/Occupancy.lean ====
section
/-!
DEFINITION. Occupancy (file 06): slices (R149), the layers in OCC_STORE (R151 to R153), sources and deltas (R155 to R163), the open
log (R165), slice boundaries (R166), epoch commits (R167, R154, R190), arm (R169) and source timeouts (R170, R172).
-/

namespace Sys2Proof.Machine

open Sys2Proof

/-! ## The service's fields and buffers -/

/-- The OCCUPANCY block of the job in force, with the first keys of OCC_STORE and OCC_BITMAP (R151). -/
structure OccCtx where
  block : Block
  jobId : BitVec 16
  store : Nat
  bitmap : Nat
  deriving DecidableEq, Repr

/-- The context of an OCCUPANCY block of a job. -/
def occCtxOf (j : Job) : Option OccCtx :=
  match j.blockOf 0x12 with
  | some b =>
    match j.bufferSpan (b.field 21), j.bufferSpan (b.field 20) with
    | some st, some bm => some ⟨b, j.id, st.key, bm.key⟩
    | _, _ => none
  | none => none

/-- The context while the layers are live. -/
def State.occCtx (s : State) : Option OccCtx :=
  if s.occ.live then (match s.activeJob with | some (_, j) => occCtxOf j | none => none) else none

/-- The Tracer's intake reads and writes under this requester number. -/
def OccCtx.req (c : OccCtx) : Requester := { num := 73, job := c.jobId, service := c.block.service }

def OccCtx.period (c : OccCtx) : Nat := c.block.field 4
def OccCtx.phase (c : OccCtx) : Nat := c.block.field 5
def OccCtx.confirm (c : OccCtx) : Nat := c.block.field 6
def OccCtx.hasPort (c : OccCtx) (n : Nat) : Bool := (c.block.field 7).testBit n
def OccCtx.hasPeer (c : OccCtx) (n : Nat) : Bool := (c.block.field 11).testBit n

/-- PRED_MAX_AGE in ms; its default is 2 × SLICE_PERIOD + 2 (R173). -/
def OccCtx.predMaxAge (c : OccCtx) : Nat := if c.block.defaulted 10 then 2 * c.period + 2 else c.block.field 10

/-- T(g) of R149. -/
def OccCtx.slice (c : OccCtx) (g : Nat) : Nat := (g - 1000 * c.phase) / (1000000 * c.period)

/-- Words of a slice image (R148). -/
def sliceWords : Nat := 32768

/-! ## Places in OCC_STORE (R151) -/

def OccCtx.predAt (c : OccCtx) (t i : Nat) : Nat := c.store + 32768 * (t % 32) + i
def OccCtx.injAt (c : OccCtx) (t i : Nat) : Nat := c.store + 1048576 + 32768 * (t % 32) + i
def OccCtx.obsAt (c : OccCtx) (i : Nat) : Nat := c.store + 2097152 + i
def OccCtx.coverAt (c : OccCtx) (port i : Nat) : Nat := c.store + 2162688 + 32768 * port + i
def OccCtx.unionAt (c : OccCtx) (i : Nat) : Nat := c.store + 2293760 + i
def OccCtx.authAt (c : OccCtx) (link i : Nat) : Nat := c.store + 2326528 + 32768 * link + i
def OccCtx.logAt (c : OccCtx) (second : Bool) (i : Nat) : Nat := c.store + 2555904 + (if second then 131072 else 0) + i
def OccCtx.stagingAt (c : OccCtx) (i : Nat) : Nat := c.store + 2818048 + i
def OccCtx.bitmapAt (c : OccCtx) (t i : Nat) : Nat := c.bitmap + 32768 * (t % 16) + i

/-! ## Words of the layers (R152, R153) -/

/-- A word of a layer, a log or the bitmap; poison is kept as none, and noted for the item in progress (R399). -/
def layerWord (c : OccCtx) (k : Nat) (s : State) : State × Option Nat :=
  let (s, g) := readWord c.req k s
  if g.bad then ({ s with occ.loadBad := true }, none) else (s, some g.data.toNat)

/-- Combine two layer words; the poison of either stays (R391). -/
def both (f : Nat → Nat → Nat) (a b : Option Nat) : Option Nat :=
  match a, b with
  | some x, some y => some (f x y)
  | _, _ => none

/-- Write a layer word, or its poison. -/
def putLayer (k : Nat) (w : Option Nat) (s : State) : State :=
  match w with
  | some n => writeWord k (word n) s
  | none => writePoison k s

/-- The PRED slot of slice t is written for t (R152). -/
def State.predWritten (s : State) (t : Nat) : Bool :=
  match nth s.occ.markers (t % 32) none with
  | some (m, _) => m == t
  | none => false

/-- Word i of PRED for slice t; zero where the slot counts as unwritten. -/
def predWord (c : OccCtx) (t i : Nat) (s : State) : State × Option Nat :=
  if s.predWritten t then layerWord c (c.predAt t i) s else (s, some 0)

/-- The clear counter of voxel u of a counter word (R151). -/
def counterOf (w u : Nat) : Nat := bits w (2 * u) 2

/-- The 256 observed bits of two counter words: 1 while the counter is below CLEAR_CONFIRM (R152). -/
def observedBits (lo hi confirm : Nat) : Nat :=
  (List.range 128).foldl (fun acc u =>
    acc + (if counterOf lo u < confirm then 2 ^ u else 0) + (if counterOf hi u < confirm then 2 ^ (128 + u) else 0)) 0

/-- A counter after one observation (R161). -/
def observeCounter (o : Bool) (n : Nat) : Nat := if o then 0 else min (n + 1) 3

/-- A counter word after the observation of its 128 voxels, those outside the coverage unchanged (R161). -/
def observeWord (w cover image : Nat) : Nat :=
  (List.range 128).foldl (fun acc u =>
    let n := counterOf w u
    acc + (if cover.testBit u then observeCounter (image.testBit u) n else n) * 2 ^ (2 * u)) 0

/-- The observed bits of word i. -/
def observedWord (c : OccCtx) (i : Nat) (s : State) : State × Option Nat :=
  let (s, lo) := layerWord c (c.obsAt (2 * i)) s
  let (s, hi) := layerWord c (c.obsAt (2 * i + 1)) s
  (s, both (fun a b => observedBits a b c.confirm) lo hi)

/-- Choose by the covered bits: observed where covered, predicted elsewhere. -/
def coverChoice (cover obs pred : Nat) : Nat := (cover &&& obs) ||| ((cover ^^^ (2 ^ 256 - 1)) &&& pred)

/-- Word i of the occupancy of slice t by R153 without FORCED, where slice `present` is relative slice 0. -/
def occWord (c : OccCtx) (present t i : Nat) (s : State) : State × Option Nat :=
  let (s, inj) := layerWord c (c.injAt t i) s
  let (s, pred) := predWord c t i s
  if t == present then
    let (s, u) := layerWord c (c.unionAt i) s
    let (s, obs) := observedWord c i s
    let seen := match u, obs, pred with
      | some u, some o, some p => some (coverChoice u o p)
      | _, _, _ => none
    (s, both (· ||| ·) inj seen)
  else (s, both (· ||| ·) inj pred)

/-- Word i of the open epoch's occupancy in slice t: R153 with T0 = Tc and FORCED zero (R163). -/
def openWord (c : OccCtx) (t i : Nat) (s : State) : State × Option Nat := occWord c s.occ.tc t i s

/-! ## The open log (R156, R163, R165) -/

/-- Entries of a log. -/
def logSize : Nat := 1048576

/-- A record of R156. -/
def deltaRecord (v t : Nat) (set : Bool) : Nat := v + (if set then 8388608 else 0) + (t % 256) * 16777216

/-- Append an entry to the open log; a full log marks the epoch REBUILD (R165). -/
def appendLog (c : OccCtx) (rec : Nat) (s : State) : State :=
  let n := s.occ.openFill
  if n ≥ logSize then { s with occ.openRebuild := true }
  else
    let k := c.logAt s.occ.openLog (n / 8)
    let lane := n % 8
    let (s, old) := layerWord c k s
    let w := old.map fun o => o - ((bits o (32 * lane) 32) <<< (32 * lane)) + (rec <<< (32 * lane))
    let s := putLayer k w s
    { s with occ.openFill := n + 1 }

/-- Log the changes of one word of slice t, in ascending voxel order (R163); slices outside the open epoch log nothing. -/
def logChanges (c : OccCtx) (t i : Nat) (old new : Option Nat) (s : State) : State :=
  match old, new with
  | some a, some b =>
    if s.occ.tc ≤ t && t ≤ s.occ.tc + 15 then
      (List.range 256).foldl (fun s u =>
        if a.testBit u == b.testBit u then s else appendLog c (deltaRecord (256 * i + u) t (b.testBit u)) s) s
    else s
  | _, _ => s

/-- Run a change of a layer on word i and log the changes of the open epoch's occupancy in slice t. -/
def loggedChange (c : OccCtx) (t i : Nat) (f : State → State) (s : State) : State :=
  let (s, old) := openWord c t i s
  let s := f s
  let (s, new) := openWord c t i s
  logChanges c t i old new s

/-! ## Slice boundaries (R166) -/

/-- Word i of the staging image, and the passage of slice Tc from predicted to present. -/
def boundaryWord (c : OccCtx) (i : Nat) (s : State) : State :=
  let t := s.occ.tc
  let (s, far) := layerWord c (c.injAt (t + 14) i) s
  let s := putLayer (c.injAt (t + 15) i) far s
  let (s, pred) := predWord c (t + 15) i s
  putLayer (c.stagingAt i) (both (· ||| ·) far pred) s

/-- The changes of covered voxels of word i as slice Tc becomes present. -/
def presentWord (c : OccCtx) (i : Nat) (s : State) : State :=
  let t := s.occ.tc
  let (s, inj) := layerWord c (c.injAt t i) s
  let (s, pred) := predWord c t i s
  let (s, now) := openWord c t i s
  logChanges c t i (both (· ||| ·) inj pred) now s

/-- One advance of Tc (R166). -/
def sliceStep (c : OccCtx) (s : State) : State :=
  let s := { s with occ.tc := s.occ.tc + 1, occ.boundaries := s.occ.boundaries + 1 }
  let s := (List.range sliceWords).foldl (fun s i => boundaryWord c i s) s
  (List.range sliceWords).foldl (fun s i => presentWord c i s) s

/-- Advance Tc to the slice of the present Global Counter, one boundary at a time (R166). -/
def catchUp (c : OccCtx) (s : State) : State :=
  (List.range (c.slice s.now - s.occ.tc)).foldl (fun s _ => sliceStep c s) s

/-! ## List records (R159, R160) -/

/-- Set or clear one INJ bit. -/
def setInj (c : OccCtx) (t v : Nat) (set : Bool) (s : State) : State :=
  let (s, old) := layerWord c (c.injAt t (v / 256)) s
  putLayer (c.injAt t (v / 256))
    (old.map fun w => if set then w ||| 2 ^ (v % 256) else w &&& ((2 ^ 256 - 1) ^^^ 2 ^ (v % 256))) s

/-- Is a voxel among those that a source may write (R155)?  `link` is none for the host.  A voxel whose word of the authority mask cannot be read counts
as outside the mask (DESIGN CHOICE, log 93). -/
def mayWrite (c : OccCtx) (link : Option Nat) (v : Nat) (s : State) : State × Bool :=
  match link with
  | none => (s, true)
  | some n =>
    let (s, w) := layerWord c (c.authAt n (v / 256)) s
    (s, match w with | some m => m.testBit (v % 256) | none => false)

/-- The 0x0307 event of a dropped record or mask (R159, R161, R514). -/
def outOfRange (source value : Nat) (job : BitVec 16) (service : Nat) (s : State) : State :=
  writeEvent { s.event 0x0307 73 with a := source, value := value, job := job, service := service } s

/-- Process one list record on behalf of an item or of the service (R159); `source` is its ID in R155. -/
def listRecord (c : OccCtx) (r : Requester) (link : Option Nat) (rec : Nat) (s : State) : State :=
  let v := bits rec 0 23
  let set := rec.testBit 23
  let d := (bits rec 24 8 + 256 - s.occ.tc % 256) % 256
  let source := match link with | none => 5 | some n => 8 + n
  let drop (s : State) : State :=
    outOfRange source rec r.job r.service { s with occ.drops := satAdd 4294967295 s.occ.drops 1 }
  if d ≤ 15 then
    let (s, ok) := mayWrite c link v s
    let t := s.occ.tc + d
    if ok then loggedChange c t (v / 256) (setInj c t v set) s else drop s
  else if 240 ≤ d then { s with occ.lateRecords := satAdd 65535 s.occ.lateRecords 1 }
  else drop s

/-- PEER_OFFSET of a link: (dx, dy, dz) (R160, R173). -/
def OccCtx.peerOffset (c : OccCtx) (n : Nat) : Int × Int × Int :=
  let v := c.block.field (12 + n)
  (signed 9 v, signed 9 (v >>> 9), signed 8 (v >>> 18))

/-- The voxel index that a sender's voxel has here; none outside the grid (R131, R160). -/
def OccCtx.mapVoxel (c : OccCtx) (link v : Nat) : Option Nat :=
  let (dx, dy, dz) := c.peerOffset link
  let x : Int := (v % 256 : Nat) + dx
  let y : Int := (v / 256 % 256 : Nat) + dy
  let z : Int := (v / 65536 : Nat) + dz
  if 0 ≤ x && x < 256 && 0 ≤ y && y < 256 && 0 ≤ z && z < 128 then some (65536 * z + 256 * y + x).toNat else none

/-- A record of the peer on a link (R160). -/
def peerRecord (c : OccCtx) (link rec : Nat) (s : State) : State :=
  match c.mapVoxel link (bits rec 0 23) with
  | some v => listRecord c c.req (some link) (rec - bits rec 0 23 + v) s
  | none => { s with occ.outside := satAdd 4294967295 s.occ.outside 1 }

/-! ## DELTA_INJECT (R157 to R162) -/

/-- The parameter block of DELTA_INJECT. -/
structure InjectParam where
  form : Nat
  port : Nat
  predSlice : Nat
  count : Nat
  time : Nat
  runStart : Nat
  reserved : Bool
  deriving DecidableEq, Repr

/-- The parameter block in a word (R157). -/
def injectParam (w : Nat) : InjectParam :=
  { form := bits w 0 2, port := bits w 2 2, predSlice := bits w 4 5, count := bits w 32 32, time := bits w 64 64,
    runStart := bits w 128 64, reserved := bits w 9 23 != 0 || bits w 192 64 != 0 }

/-- Words of data that a form needs. -/
def InjectParam.words (p : InjectParam) : Nat := if p.form == 0 then ceilDiv p.count 8 else sliceWords

/-- The checks of R158 for an issuing service of a type. -/
def injectCheck (c : OccCtx) (serviceType dataWords : Nat) (p : InjectParam) : Check Unit := do
  need (p.count != 4294967295) 0x0107
  need (!(p.form == 0 && p.count == 0)) 0x0108
  need (!p.reserved && p.form != 3) 0x0105
  need (match p.form with
    | 0 => (serviceType == 0x12 || serviceType == 0x15) && p.port == 0 && p.predSlice == 0 && p.time == 0 && p.runStart == 0
    | 1 => serviceType == 0x12 && c.hasPort p.port && p.predSlice == 0 && p.count == 0 && p.runStart == 0
    | _ => serviceType == 0x13 && p.port == 0 && 1 ≤ p.predSlice && p.predSlice ≤ 16 && p.count == 0) 0x0105
  need (p.form != 0 || p.count ≤ 65536) 0x0106
  need (p.words ≤ dataWords) 0x0101

/-- An observation mask of a port, word by word (R161, R164). -/
def observeMask (c : OccCtx) (port dataAt : Nat) : List Nat → Run Unit
  | [] => pure ()
  | i :: t => do
    let img ← getWord c.req (dataAt + i)
    let cover ← getWord c.req (c.coverAt port i)
    change fun s => loggedChange c s.occ.tc i (fun s =>
      let (s, lo) := layerWord c (c.obsAt (2 * i)) s
      let (s, hi) := layerWord c (c.obsAt (2 * i + 1)) s
      let s := putLayer (c.obsAt (2 * i)) (lo.map fun w => observeWord w cover img) s
      putLayer (c.obsAt (2 * i + 1)) (hi.map fun w => observeWord w (cover >>> 128) (img >>> 128)) s) s
    observeMask c port dataAt t

/-- The marker of a PRED slot is set for slice t; a slot that counts as unwritten for t does not keep its earlier contents and holds zeros
(R162). -/
def openPred (c : OccCtx) (t runStart : Nat) (s : State) : State :=
  let s := if s.predWritten t then s else (List.range sliceWords).foldl (fun s i => writeWord (c.predAt t i) 0 s) s
  { s with occ.markers := s.occ.markers.set (t % 32) (some (t, runStart)) }

/-- A predictor mask of slice t, word by word (R162). -/
def predictMask (c : OccCtx) (t dataAt : Nat) : List Nat → Run Unit
  | [] => pure ()
  | i :: r => do
    let img ← getWord c.req (dataAt + i)
    change (loggedChange c t i (writeWord (c.predAt t i) (word img)))
    predictMask c t dataAt r

/-- The list records of a host injection from number `m` up to `n` in its data words, each word read once. -/
def injectList (c : OccCtx) (r : Requester) (dataAt m n : Nat) : List Nat → Run Unit
  | [] => pure ()
  | i :: t => do
    let w ← getWord c.req (dataAt + i)
    change fun s => ((List.range (min 8 (n - 8 * i))).filter fun l => m ≤ 8 * i + l).foldl (fun s l => listRecord c r none (bits w (32 * l) 32) s) s
    injectList c r dataAt m n t

/-- An item that loaded a poisoned layer word completes POISONED (R399). -/
def layerResult (r : Result) : Run Result := do
  let s ← get
  if s.occ.loadBad then poisoned else pure r

/-- What the intake processes atomically in an injection: list records, or mask words (R164). -/
def InjectParam.units (p : InjectParam) : Nat := if p.form == 0 then p.count else sliceWords

/-- The units of an injection from one number up to another. -/
def injectUnits (c : OccCtx) (it : Item) (p : InjectParam) (dataAt from_ upTo : Nat) : Run Unit :=
  let words := ((List.range (upTo - from_)).map (from_ + ·))
  match p.form with
  | 0 => injectList c it.requester dataAt from_ upTo (((List.range (ceilDiv upTo 8 - from_ / 8)).map (from_ / 8 + ·)))
  | 1 => observeMask c p.port dataAt words
  | _ => predictMask c (p.time + p.predSlice) dataAt words

/-- The start of an injection: its parameter word, where there are units to process.  The age of a mask and the slices open to it are judged at the
item's start (R161, R162). -/
def injectStart (c : OccCtx) (it : Item) (serviceType : Nat) (param data : Span) : Run (Option Word) := do
  change fun s => { s with occ.loadBad := false }
  let w ← getWord c.req param.key
  let p := injectParam w
  checkOp fun _ => injectCheck c serviceType data.len p
  match p.form with
  | 0 => pure (some (word w))
  | 1 =>
    if p.time + 1000000 * c.block.field 8 < it.started then
      change fun s => outOfRange p.port 0 it.jobId it.service { s with occ.lateMasks := satAdd 65535 s.occ.lateMasks 1 }
      pure none
    else
      change fun s => { s with
        occ.lastObs := s.occ.lastObs.set p.port s.now
        occ.obsTimeout := s.occ.obsTimeout &&& ~~~(1#4 <<< p.port) }
      pure (some (word w))
  | _ =>
    let t := p.time + p.predSlice
    if t ≤ c.slice it.started || c.slice it.started + 16 < t then
      change fun s => { s with occ.lateMasks := satAdd 65535 s.occ.lateMasks 1 }
      pure none
    else
      change (openPred c t p.runStart)
      pure (some (word w))

/-- The injection of an item that a commit or a boundary has met half done. -/
def State.halfDone (s : State) (id : Nat) : Option Injection := s.occ.injecting.filter fun x => x.item == id

/-- An injection goes on from where it stands, or starts: its parameter word and the units done; none where it has nothing to process. -/
def injectOpen (c : OccCtx) (it : Item) (serviceType : Nat) (param data : Span) : Run (Option (Word × Nat)) := do
  let s ← get
  match s.halfDone it.id with
  | some x =>
    change fun s => { s with occ.loadBad := x.bad, occ.injecting := none }
    pure (some (x.param, x.next))
  | none =>
    let w ← injectStart c it serviceType param data
    pure (w.map fun w => (w, 0))

/-- The rest of an injection of an item of a service. -/
def injectRest (c : OccCtx) (it : Item) (serviceType : Nat) (param data : Span) : Run Result := do
  match ← injectOpen c it serviceType param data with
  | some (w, n) =>
    let p := injectParam w.toNat
    injectUnits c it p data.key n p.units
    layerResult done
  | none => pure done

/-- Process up to `n` units of an injection one by one and keep how far it came; a unit that fails stays for the item's own end. -/
def injectPart (c : OccCtx) (it : Item) (p : InjectParam) (w : Word) (dataAt : Nat) : Nat → Nat → State → State
  | 0, next, s => { s with occ.injecting := some ⟨it.id, w, next, s.occ.loadBad⟩ }
  | n + 1, next, s =>
    if p.units ≤ next then { s with occ.injecting := some ⟨it.id, w, next, s.occ.loadBad⟩ }
    else match runProg (injectUnits c it p dataAt next (next + 1)) s with
      | (t, .ok _) => injectPart c it p w dataAt n (next + 1) t
      | (_, .error _) => { s with occ.injecting := some ⟨it.id, w, next, s.occ.loadBad⟩ }

/-- The DELTA_INJECT item that runs, and its job. -/
def State.injectItem (s : State) : Option (Item × Job) :=
  (s.shu.items.find? fun it => it.phase == .running && it.result == none && Entry.op it.entry == 0x0303).bind fun it =>
    (s.jobIn it.slot).map fun j => (it, j)

/-- Process up to `n` units of the injection that runs, if any.  One that cannot start stays for the item's own end. -/
def injectSome (c : OccCtx) (n : Nat) (s : State) : State :=
  match s.injectItem with
  | none => s
  | some (it, j) =>
    match j.operandSpan it.entry 0, j.operandSpan it.entry 1 with
    | some p, some d =>
      (match runProg (injectOpen c it (((j.service it.service).map (·.serviceType)).getD 0) p d) s with
       | (t, .ok (some (w, k))) => injectPart c it (injectParam w.toNat) w d.key n k t
       | _ => s)
    | _, _ => s

/-- How far the injection that runs has come when a commit or a boundary meets it is a free value: not begun, or begun with some units processed (R164,
log 18). -/
def injectFree (c : OccCtx) (s : State) : State :=
  if s.injectItem.isNone then s
  else
    let t := { s with freeCount := s.freeCount + 1 }
    match (Config.freeValue s.freeCount).toNat with
    | 0 => t
    | n + 1 => injectSome c n t

/-- A slice boundary: it falls between two units of the injection that runs (R164). -/
def boundary (c : OccCtx) (s : State) : State := if s.occ.tc < c.slice s.now then catchUp c (injectFree c s) else s

/-- The injection that has begun is processed before any other: the intake takes one at a time, in dispatch order (R164). -/
def injectFirst (c : OccCtx) (s : State) : State :=
  match s.occ.injecting, s.injectItem with
  | some x, some (it, _) => if x.item == it.id then injectSome c (injectParam x.param.toNat).units s else s
  | _, _ => s

/-- DELTA_INJECT for an item of a service. -/
def deltaInject (c : OccCtx) (it : Item) (serviceType : Nat) (param data : Span) : Run Result := do
  change (catchUp c)
  injectRest c it serviceType param data

/-! ## Commit (R154, R165, R167, R171, R190) -/

/-- A FORCED bit of relative slice k at T0, and whether age alone sets it (R154, R171). -/
def forcedBit (c : OccCtx) (s : State) (t : Nat) : Bool × Bool :=
  match nth s.occ.markers (t % 32) none with
  | some (m, start) =>
    if m == t then
      let old := start + 1000000 * c.predMaxAge < s.now
      (old, old)
    else (true, false)
  | none => (true, false)

/-- The committed epoch that the open one becomes. -/
def closeEpoch (c : OccCtx) (s : State) : Epoch :=
  let t0 := c.slice s.now
  let f := (List.range 16).map fun k => forcedBit c s (t0 + k)
  let pending := s.occ.committed.isSome && !s.occ.committedApplied
  { number := s.occ.openEpoch, t0 := t0,
    forced := BitVec.ofNat 16 ((List.range 16).foldl (fun acc k => acc + (if (nth f k (false, false)).1 then 2 ^ k else 0)) 0),
    rebuild := s.occ.openRebuild || 1 < s.occ.boundaries || pending,
    stale := f.any (·.2), log := s.occ.openLog, fill := s.occ.openFill }

/-- EPOCH_COMMIT: close the open log, record the epoch, open the next with the other log. -/
def epochCommit (c : OccCtx) (s : State) : State :=
  let s := injectFree c (boundary c s)
  let e := closeEpoch c s
  let pending := s.occ.committed.isSome && !s.occ.committedApplied
  let s := { s with
    occ.committed := some e, occ.committedApplied := false, occ.superseded := s.occ.superseded || pending,
    occ.openEpoch := s.occ.openEpoch + 1, occ.openLog := !s.occ.openLog, occ.openFill := 0, occ.openRebuild := false,
    occ.boundaries := 0 }
  if e.stale then raiseAlarm 0x0308 4 0 s else s

/-! ## Arm (R169) -/

/-- Fill successive words with one value. -/
def fillWords (k : Nat) : Nat → Word → State → State
  | 0, _, s => s
  | n + 1, w, s => fillWords (k + 1) n w (writeWord k w s)

/-- Word i of the union mask of the ports in OBS_PORTS. -/
def unionWord (c : OccCtx) (i : Nat) (s : State) : State :=
  let (s, u) := (List.range 4).foldl (fun (s, u) n =>
    if c.hasPort n then
      let (s, w) := layerWord c (c.coverAt n i) s
      (s, both (· ||| ·) u w)
    else (s, u)) (s, some 0)
  putLayer (c.unionAt i) u s

/-- The initial state of the occupancy service at JOB_ARM. -/
def armOccupancy (c : OccCtx) (s : State) : State :=
  let s := fillWords c.store 2162688 0 s
  let s := fillWords (c.logAt false 0) 294912 0 s
  let s := (List.range sliceWords).foldl (fun s i => unionWord c i s) s
  let s := fillWords c.bitmap 524288 (BitVec.allOnes 256) s
  let t0 := c.slice s.now
  let e : Epoch := { number := 0, t0 := t0, forced := 0xFFFF, rebuild := true, stale := false, log := true, fill := 0 }
  { s with occ := { live := true, openEpoch := 1, openLog := false, openRebuild := true, tc := t0, committed := some e,
                    lastObs := List.replicate 4 s.now, lastPeer := List.replicate 7 s.now } }

/-! ## Source timeouts (R170, R172) -/

/-- Set the counters of a port's coverage to 0 in word i, with the resulting changes logged. -/
def clearCoverage (c : OccCtx) (port i : Nat) (s : State) : State :=
  let (s, cover) := layerWord c (c.coverAt port i) s
  match cover with
  | none => s
  | some m =>
    loggedChange c s.occ.tc i (fun s =>
      let (s, lo) := layerWord c (c.obsAt (2 * i)) s
      let (s, hi) := layerWord c (c.obsAt (2 * i + 1)) s
      let s := putLayer (c.obsAt (2 * i)) (lo.map fun w => observeWord w m m) s
      putLayer (c.obsAt (2 * i + 1)) (hi.map fun w => observeWord w (m >>> 128) (m >>> 128)) s) s

/-- The evaluation of port n at a multiple of 100 µs (R170). -/
def obsTimeout (port : Nat) (s : State) : State :=
  match s.occCtx with
  | none => s
  | some c =>
    if s.now % 100000 != 0 || !c.hasPort port || s.occ.obsTimeout.getLsbD port ||
        s.now < nth s.occ.lastObs port 0 + 1000000 * c.block.field 9 then s
    else
      let s := catchUp c s
      let s := (List.range sliceWords).foldl (fun s i => clearCoverage c port i s) s
      raiseAlarm 0x0308 port 0 { s with occ.obsTimeout := s.occ.obsTimeout ||| (1#4 <<< port) }

/-- Set every voxel of a peer's authority mask in word i of INJ slot t. -/
def forcePeerWord (c : OccCtx) (link t i : Nat) (s : State) : State :=
  let (s, m) := layerWord c (c.authAt link i) s
  loggedChange c t i (fun s =>
    let (s, old) := layerWord c (c.injAt t i) s
    putLayer (c.injAt t i) (both (· ||| ·) old m) s) s

/-- The evaluation of the peer on PLn at a multiple of 100 µs (R172). -/
def peerTimeout (link : Nat) (s : State) : State :=
  match s.occCtx with
  | none => s
  | some c =>
    if s.now % 100000 != 0 || !c.hasPeer link || s.occ.peerTimeout.getLsbD link ||
        s.now < nth s.occ.lastPeer link 0 + 1000000 * c.block.field 19 then s
    else
      let s := catchUp c s
      let s := (List.range 16).foldl (fun s d =>
        (List.range sliceWords).foldl (fun s i => forcePeerWord c link (s.occ.tc + d) i s) s) s
      raiseAlarm 0x0308 (8 + link) 0 { s with occ.peerTimeout := s.occ.peerTimeout ||| (1#7 <<< link),
                                              occ.peerForced := s.occ.peerForced ||| (1#7 <<< link) }

/-- A record has arrived from the peer on a link: its timeout ends (R172, R466). -/
def peerHeard (link : Nat) (s : State) : State :=
  { s with occ.lastPeer := s.occ.lastPeer.set link s.now, occ.peerTimeout := s.occ.peerTimeout &&& ~~~(1#7 <<< link) }

/-! ## FULL_STATE (R466) -/

/-- The bit of a peer's full state for local voxel v of slice t: the sender's voxel that maps on it, zero where absent. -/
def fullStateBit (c : OccCtx) (link t v : Nat) (es : List FullEntry) : Bool :=
  let (dx, dy, dz) := c.peerOffset link
  let x : Int := (v % 256 : Nat) - dx
  let y : Int := (v / 256 % 256 : Nat) - dy
  let z : Int := (v / 65536 : Nat) - dz
  if 0 ≤ x && x < 256 && 0 ≤ y && y < 256 && 0 ≤ z && z < 128 then
    let u := (65536 * z + 256 * y + x).toNat
    es.any fun e => e.sliceTag.toNat == t % 256 && e.wordIndex.toNat == u / 256 && e.word.getLsbD (u % 256)
  else false

/-- Apply a full state to word i of slice t. -/
def fullStateWord (c : OccCtx) (link t i : Nat) (es : List FullEntry) (s : State) : State :=
  let (s, m) := layerWord c (c.authAt link i) s
  let new := (List.range 256).foldl (fun acc u => acc + (if fullStateBit c link t (256 * i + u) es then 2 ^ u else 0)) 0
  loggedChange c t i (fun s =>
    let (s, old) := layerWord c (c.injAt t i) s
    putLayer (c.injAt t i) (both (fun o m => coverChoice m new o) old m) s) s

/-- The slices that a FULL_STATE covers: those of the sender's Tc to Tc + 15, given by its TAG modulo 2^32, that lie in the receiver's own (R464, R466). -/
def coveredSlices (tc tag : Nat) : List Nat :=
  ((List.range 16).map (tc + ·)).filter fun t => (t + 4294967296 - tag % 4294967296) % 4294967296 < 16

/-- Apply a FULL_STATE from the peer on a link: its authority mask in the slices that the record covers; it ends the forcing of R172.  R172 has DELTA
records restart PEER_TIMEOUT and end its bit; a FULL_STATE leaves both as they are (DESIGN CHOICE, log 92). -/
def applyFullState (c : OccCtx) (link tag : Nat) (es : List FullEntry) (s : State) : State :=
  let s := injectFirst c (catchUp c s)
  let s := (coveredSlices s.occ.tc tag).foldl (fun s t =>
    (List.range sliceWords).foldl (fun s i => fullStateWord c link t i es s) s) s
  { s with occ.peerForced := s.occ.peerForced &&& ~~~(1#7 <<< link) }

end Sys2Proof.Machine
end

