-- ==== Sys2Proof/Machine/Keccak.lean ====
section
/-!
DEFINITION. SHAKE128 and SHAKE256 as FIPS 202 defines them (R137, R138), and the chunked section digest of R138.
-/

namespace Sys2Proof.Machine

open Sys2Proof

/-- Rotation to the left of a 64-bit lane. -/
def rotl64 (x n : Nat) : Nat := m64 (x <<< n) ||| (x >>> (64 - n))

/-- The walk of step rho over the 24 lanes beside lane 0: the step number t, the lane (x, y) it meets, and the lanes met so far, each with
its offset, the triangular number of t + 1 modulo the lane's width (FIPS 202 section 3.2.2). -/
def rhoWalk : Nat → Nat → Nat × Nat → List (Nat × Nat)
  | 0, _, _ => []
  | left + 1, t, (x, y) => (x + 5 * y, (t + 1) * (t + 2) / 2 % 64) :: rhoWalk left (t + 1) (y, (2 * x + 3 * y) % 5)

/-- The rotation of lane x + 5y in step rho; lane 0 stands. -/
def rhoOffset (lane : Nat) : Nat := (((rhoWalk 24 0 (1, 0)).find? (·.1 == lane)).map (·.2)).getD 0

/-- The feedback register of step iota, eight bits of which bit 0 is given out, shifted once (FIPS 202 section 3.2.5). -/
def iotaShift (r : Nat) : Nat := if r < 128 then 2 * r else (2 * r) ^^^ 0x171

/-- The bits that the register gives out, one for each state in turn. -/
def iotaBits : Nat → Nat → List Nat
  | 0, _ => []
  | n + 1, r => r % 2 :: iotaBits n (iotaShift r)

/-- A round constant: the j-th of its seven bits stands at bit 2^j - 1 of lane 0. -/
def iotaConstant (given : List Nat) : Nat :=
  ((List.range 7).zip given).foldl (fun acc (j, bit) => acc + bit * 2 ^ (2 ^ j - 1)) 0

/-- The constants of the rounds, seven bits each from the bits given out. -/
def iotaConstants : Nat → List Nat → List Nat
  | 0, _ => []
  | n + 1, given => iotaConstant (given.take 7) :: iotaConstants n (given.drop 7)

/-! A state is a number of 1,600 bits: lane (x, y) stands at bit 64 (x + 5 y), so that byte i of the sponge is bits 8 i to 8 i + 7, and a plane of five
lanes takes 320 bits. -/

/-- Lane (x, y) of a state, both coordinates modulo 5. -/
def laneAt (a x y : Nat) : Nat := bits a (64 * (x % 5 + 5 * (y % 5))) 64

/-- A state from its lanes by coordinates. -/
def lanesBy (f : Nat → Nat → Nat) : Nat := (List.range 25).foldl (fun acc i => acc + f (i % 5) (i / 5) <<< (64 * i)) 0

/-- Step theta: every lane takes the parities of two neighbour columns. -/
def stepTheta (a : Nat) : Nat :=
  let parity := (List.range 5).foldl (fun p y => p ^^^ bits a (320 * y) 320) 0
  let plane := (List.range 5).foldl (fun p x => p + (laneAt parity (x + 4) 0 ^^^ rotl64 (laneAt parity (x + 1) 0) 1) <<< (64 * x)) 0
  (List.range 5).foldl (fun p y => p + (bits a (320 * y) 320 ^^^ plane) <<< (320 * y)) 0

/-- Steps rho and pi: the lane at (x, y) comes, rotated, from (x + 3y, x). -/
def stepRhoPi (a : Nat) : Nat :=
  lanesBy fun x y => rotl64 (laneAt a (x + 3 * y) x) (rhoOffset ((x + 3 * y) % 5 + 5 * x))

/-- Step chi: a lane changes where its right neighbour is clear and the one beyond it is set. -/
def stepChi (a : Nat) : Nat :=
  lanesBy fun x y => laneAt a x y ^^^ (laneAt a (x + 2) y - (laneAt a (x + 1) y &&& laneAt a (x + 2) y))

/-- One round of Keccak-f[1600], with the constant of step iota. -/
def keccakRound (a rc : Nat) : Nat := stepChi (stepRhoPi (stepTheta a)) ^^^ rc

/-- Keccak-f[1600]. -/
def keccakF (a : Nat) : Nat := (iotaConstants 24 (iotaBits 168 1)).foldl keccakRound a

/-- Absorb one block of bytes. -/
def keccakAbsorb (a : Nat) (block : List Byte) : Nat := keccakF (a ^^^ ofBytes block)

/-- Absorb a message in blocks of `rate` bytes with the padding of SHAKE; the second argument bounds the number of blocks. -/
def shakeAbsorb (rate : Nat) : Nat → Nat → List Byte → Nat
  | 0, a, _ => a
  | n + 1, a, m =>
    if m.length < rate then
      let tail := m ++ [0x1F] ++ List.replicate (rate - 1 - m.length) 0
      keccakAbsorb a (tail.take (rate - 1) ++ [nth tail (rate - 1) 0 ||| 0x80])
    else shakeAbsorb rate n (keccakAbsorb a (m.take rate)) (m.drop rate)

/-- Blocks of output from a state that has absorbed its message. -/
def shakeSqueeze (rate : Nat) : Nat → Nat → List Byte
  | 0, _ => []
  | n + 1, a => toBytes a rate ++ shakeSqueeze rate n (keccakF a)

/-- The first `size` bytes of SHAKE with a rate, of a message. -/
def shake (rate size : Nat) (m : List Byte) : List Byte :=
  (shakeSqueeze rate (ceilDiv size rate) (shakeAbsorb rate (m.length / rate + 1) 0 m)).take size

/-- SHAKE128 and SHAKE256, `size` bytes. -/
def shake128 (size : Nat) (m : List Byte) : List Byte := shake 168 size m
def shake256 (size : Nat) (m : List Byte) : List Byte := shake 136 size m

/-- The 64-byte digest of R137 and R138. -/
def shake64 (m : List Byte) : List Byte := shake256 64 m

/-- The digests of the chunks of a section, one after the other; the first argument bounds their number (R138). -/
def chunkDigests : Nat → List Word → List Byte
  | 0, _ => []
  | n + 1, ws => if ws.isEmpty then [] else shake64 (wordsBytes (ws.take 2097152)) ++ chunkDigests n (ws.drop 2097152)

/-- D[s] of R138. -/
def sectionDigest (ws : List Word) : List Byte := shake64 (chunkDigests (ws.length / 2097152 + 1) ws)

end Sys2Proof.Machine
end

