-- ==== Sys2Proof/Machine/Signature.lean ====
section
/-!
DEFINITION. ML-DSA-65 verification with an empty context string, which R137 and R509 take from FIPS 204.  The standard's text is no part of the manual: its
parameters and algorithms are PRESUMED here (assumption log 6).
-/

namespace Sys2Proof.Machine

open Sys2Proof

/-! ## The ring Z_q[X] / (X^256 + 1) -/

/-- The modulus q. -/
def dsaQ : Nat := 8380417

/-- A polynomial by its 256 coefficients, modulo q. -/
abbrev DsaPoly := List Nat

/-- The eight bits of an index in reverse order. -/
def reverse8 (i : Nat) : Nat := (List.range 8).foldl (fun acc b => 2 * acc + bits i b 1) 0

/-- The exponent of 1753 in the point ζ_i. -/
def nttExponent (i : Nat) : Nat := 2 * reverse8 i + 1

/-- The transform of a polynomial: its values at the 256 points. -/
def ntt (f : DsaPoly) : DsaPoly :=
  (List.range 256).map fun i => let z := powMod dsaQ 1753 (nttExponent i); f.foldr (fun c acc => (c + z * acc) % dsaQ) 0

/-- The polynomial with given values at the points: 1753 has order 512, and 8347681 is the inverse of 256. -/
def inverseNtt (f : DsaPoly) : DsaPoly :=
  (List.range 256).map fun j =>
    8347681 * ((f.zip (List.range 256)).foldl (fun acc (v, i) => (acc + v * powMod dsaQ 1753 ((512 - nttExponent i) * j % 512)) % dsaQ) 0) % dsaQ

/-- Sum, difference and product value by value. -/
def polyAdd (f g : DsaPoly) : DsaPoly := (f.zip g).map fun (a, b) => (a + b) % dsaQ
def polySub (f g : DsaPoly) : DsaPoly := (f.zip g).map fun (a, b) => (a + dsaQ - b) % dsaQ
def polyMul (f g : DsaPoly) : DsaPoly := (f.zip g).map fun (a, b) => a * b % dsaQ

/-- A polynomial with integer coefficients, modulo q. -/
def polyOfInts (f : List Int) : DsaPoly := f.map fun (c : Int) => (c % (dsaQ : Int)).toNat

/-! ## What is drawn from a digest -/

/-- Entry (row, column) of the matrix, in transformed form: the numbers of 23 bits below q in the SHAKE128 stream of the seed, column and row.  The stream
is cut after 1,680 bytes. -/
def matrixEntry (seed : List Byte) (row column : Nat) : DsaPoly :=
  let bs := shake128 1680 (seed ++ toBytes column 1 ++ toBytes row 1)
  (((List.range 560).map fun i => bits (ofBytes ((bs.drop (3 * i)).take 3)) 0 23).filter (· < dsaQ)).take 256

/-- The places i and on of a challenge with 49 coefficients of ±1, their signs and places taken from a stream; none when the stream ends. -/
def fillBall : Nat → Nat → Nat → List Byte → List Int → Option (List Int)
  | 0, _, _, _, c => some c
  | left + 1, i, signs, stream, c =>
    match stream.dropWhile (fun b => decide (i < b.toNat)) with
    | [] => none
    | b :: rest => fillBall left (i + 1) (signs / 2) rest ((c.set i (nth c b.toNat 0)).set b.toNat (if signs % 2 == 1 then -1 else 1))

/-- The challenge of a digest, from the first 408 bytes of its SHAKE256 stream. -/
def challenge (digest : List Byte) : Option (List Int) :=
  let bs := shake256 408 digest
  fillBall 49 207 (ofBytes (bs.take 8)) (bs.drop 8) (List.replicate 256 0)

/-! ## Encodings -/

/-- The 256 fields of `width` bits in bytes. -/
def unpackBits (width : Nat) (bs : List Byte) : List Nat := let n := ofBytes bs; (List.range 256).map fun i => bits n (width * i) width

/-- Polynomial i of the response z of a signature. -/
def responsePoly (sig : List Byte) (i : Nat) : List Int :=
  (unpackBits 20 ((sig.drop (48 + 640 * i)).take 640)).map fun (v : Nat) => 524288 - (v : Int)

/-- The places of the hints of each of the six rows; none where their encoding is malformed. -/
def hintPlaces (y : List Nat) : Option (List (List Nat)) :=
  let ends := 0 :: (List.range 6).map fun i => nth y (55 + i) 0
  let row (i : Nat) : List Nat := (y.take (nth ends (i + 1) 0)).drop (nth ends i 0)
  let wellFormed := ((List.range 6).all fun i =>
      nth ends i 0 ≤ nth ends (i + 1) 0 && nth ends (i + 1) 0 ≤ 55 && ((row i).zip ((row i).drop 1)).all fun (a, b) => a < b) &&
    ((y.take 55).drop (nth ends 6 0)).all (· == 0)
  if wellFormed then some ((List.range 6).map row) else none

/-! ## Verification -/

/-- High part and low part of a number modulo q, with 2γ₂ = 523,776. -/
def decompose (r : Nat) : Nat × Int :=
  let low : Int := if r % 523776 ≤ 261888 then r % 523776 else (r % 523776 : Int) - 523776
  if (r : Int) - low == dsaQ - 1 then (0, low - 1) else (((r : Int) - low) / 523776 |>.toNat, low)

/-- The high part that a hint corrects. -/
def useHint (hint : Bool) (r : Nat) : Nat :=
  let (high, low) := decompose r
  if !hint then high else if 0 < low then (high + 1) % 16 else (high + 15) % 16

/-- Row i of w₁: the approximation A z − c t₁ 2^13, corrected by its hints; `z` and `c` in transformed form. -/
def commitmentRow (pub : List Byte) (z : List DsaPoly) (c : DsaPoly) (hints : List Nat) (i : Nat) : List Nat :=
  let t := ntt ((unpackBits 10 ((pub.drop (32 + 320 * i)).take 320)).map (8192 * · % dsaQ))
  let az := ((List.range 5).map fun j => polyMul (matrixEntry (pub.take 32) i j) (nth z j [])).foldl polyAdd (List.replicate 256 0)
  ((inverseNtt (polySub az (polyMul c t))).zip (List.range 256)).map fun (r, k) => useHint (hints.contains k) r

/-- The encoding of a row of w₁, two coefficients a byte. -/
def commitmentBytes (row : List Nat) : List Byte := (List.range 128).map fun i => BitVec.ofNat 8 (nth row (2 * i) 0 + 16 * nth row (2 * i + 1) 0)

/-- A signature of 3,309 bytes verifies over a message under a public key of 1,952 bytes, with an empty context string (R137, R509). -/
def mlDsaVerify (pub message sig : List Byte) : Bool :=
  let digest := sig.take 48
  match hintPlaces ((sig.drop 3248).map (·.toNat)), challenge digest with
  | some hints, some c =>
    let z := (List.range 5).map (responsePoly sig)
    let mu := shake256 64 (shake256 64 pub ++ [0, 0] ++ message)
    let zHat := z.map fun p => ntt (polyOfInts p)
    let w := (List.range 6).flatMap fun i => commitmentBytes (commitmentRow pub zHat (ntt (polyOfInts c)) (nth hints i []) i)
    pub.length == 1952 && sig.length == 3309 && (z.all fun p => p.all fun v => decide (v.natAbs < 524092)) && shake256 48 (mu ++ w) == digest
  | _, _ => false

end Sys2Proof.Machine
end

