-- ==== Sys2Proof/Machine/Pattern.lean ====
section
/-!
DEFINITION. The Pattern (file 05): its records (R122 to R126), edge geometry (R127, R128), the velocity bound (R130), the image
header (R136), the structure checks (R142), install (R140, R141) and retirement (R144).
-/

namespace Sys2Proof.Machine

open Sys2Proof

/-! ## Records (R123 to R126) -/

/-- A joint record of a partition. -/
structure Joint where
  min : Int
  max : Int
  vmax : Nat
  quantum : Nat
  prismatic : Bool
  deriving DecidableEq, Repr

/-- The joint record in 64 bits. -/
def jointOf (w : Nat) : Joint :=
  { min := signed 16 w, max := signed 16 (w >>> 16), vmax := bits w 32 16, quantum := bits w 48 8, prismatic := w.testBit 56 }

/-- A partition record. -/
structure Partition where
  first : Nat
  last : Nat
  modelSig : BitVec 64
  joints : List Joint
  deriving DecidableEq, Repr

/-- Joints of a JOINT_MASK: J where it is 2^J − 1. -/
def maskJoints (m : Nat) : Nat := ((List.range 8).filter fun j => m.testBit j).length

/-- The partition record in 1,024 bits; only its J joints are listed. -/
def partitionOf (r : Nat) : Partition :=
  { first := bits r 0 32, last := bits r 32 32, modelSig := BitVec.ofNat 64 (r >>> 128),
    joints := (List.range (maskJoints (bits r 64 8))).map fun j => jointOf (bits r (512 + 64 * j) 64) }

/-- A node record. -/
structure Node where
  q : List Int
  firstEdge : Nat
  partition : Nat
  stop : Bool
  deriving DecidableEq, Repr

/-- The node record in a word. -/
def nodeOf (w : Nat) : Node :=
  { q := (List.range 8).map fun j => signed 16 (w >>> (16 * j)), firstEdge := bits w 128 22, partition := bits w 152 4,
    stop := w.testBit 156 }

/-- An edge record. -/
structure Edge where
  src : Nat
  dst : Nat
  cost : Nat
  duration : Nat
  cls : Nat
  prim : Nat
  rev : Bool
  deriving DecidableEq, Repr

/-- The edge record in 128 bits. -/
def edgeOf (w : Nat) : Edge :=
  { src := bits w 0 18, dst := bits w 24 18, cost := bits w 48 16, duration := bits w 64 16, cls := bits w 80 4,
    prim := bits w 88 16, rev := w.testBit 104 }

/-- f_j[i] in the 32 words of a primitive record. -/
def primValue (ws : List Nat) (j i : Nat) : Int := signed 16 ((nth ws (4 * j + i / 16) 0) >>> (16 * (i % 16)))

/-! ## Geometry (R127, R128, R130) -/

/-- Largest path parameter: 63 × 1,024. -/
def sigmaMax : Nat := 64512

/-- q_j(i) of R127 before the range test. -/
def gridRaw (a b fwd rev : Int) (reversed : Bool) : Int :=
  if reversed then b + (((a - b) * rev + 8192) >>> (14 : Nat)) else a + (((b - a) * fwd + 8192) >>> (14 : Nat))

/-- The range clamp of R127, and whether the point is OUT_OF_RANGE. -/
def clampJoint (jt : Joint) (q : Int) : Int × Bool :=
  if q < jt.min then (jt.min, true) else if jt.max < q then (jt.max, true) else (q, false)

/-- The 64 grid points of one joint along an edge. -/
def jointGrid (jt : Joint) (a b : Int) (f : Nat → Int) (reversed : Bool) : List (Int × Bool) :=
  (List.range 64).map fun i => clampJoint jt (gridRaw a b (f i) (f (63 - i)) reversed)

/-- The geometry of an edge: for each joint its 64 grid points, and whether one of them is OUT_OF_RANGE. -/
structure EdgeGeo where
  grid : List (List Int)
  out : Bool
  deriving DecidableEq, Repr

/-- Geometry of an edge from its joints, end positions and primitive words. -/
def edgeGeo (joints : List Joint) (a b : List Int) (prim : List Nat) (reversed : Bool) : EdgeGeo :=
  let g := ((List.range joints.length).zip joints).map fun (j, jt) =>
    jointGrid jt (nth a j 0) (nth b j 0) (primValue prim j) reversed
  { grid := g.map fun l => l.map (·.1), out := g.any fun l => l.any (·.2) }

/-- q_j(σ) of R128 for one joint. -/
def atSigma (grid : List Int) (sigma : Nat) : Int :=
  if sigma < sigmaMax then
    let i := sigma / 1024
    let t : Int := (sigma % 1024 : Nat)
    let q0 := nth grid i 0
    q0 + (((nth grid (i + 1) 0 - q0) * t + 512) >>> (10 : Nat))
  else nth grid 63 0

/-- The position at σ of every joint. -/
def EdgeGeo.at (g : EdgeGeo) (sigma : Nat) : List Int := g.grid.map (atSigma · sigma)

/-- The velocity bound B of R130. -/
def velocityBound (joints : List Joint) (g : EdgeGeo) : Nat :=
  (List.range 63).foldl (fun acc i =>
    acc + ((joints.zip g.grid).map fun (jt, l) =>
      ceilDiv (100 * (nth l (i + 1) 0 - nth l i 0).natAbs) jt.vmax).foldl max 0) 0

/-! ## Reading the active Pattern from the BSP area (R119) -/

/-- Partition `i`. -/
def getPartition (r : Requester) (p : Pattern) (i : Nat) : Run Partition := do
  let ws ← getWords r (p.partAt + 4 * i) 4
  pure (partitionOf (spanBits (ws.map word) 0 1024))

/-- Node `n`. -/
def getNode (r : Requester) (p : Pattern) (n : Nat) : Run Node := do
  let w ← getWord r (p.nodeAt + n)
  pure (nodeOf w)

/-- Edge `e`. -/
def getEdge (r : Requester) (p : Pattern) (e : Nat) : Run Edge := do
  let w ← getWord r (p.edgeAt + e / 2)
  pure (edgeOf (bits w (128 * (e % 2)) 128))

/-- The out-edges of a node: first, and one past the last (R124). -/
def getOut (r : Requester) (p : Pattern) (n : Nat) : Run (Nat × Nat) := do
  let a ← getNode r p n
  if n + 1 < p.nodes then do
    let b ← getNode r p (n + 1)
    pure (a.firstEdge, b.firstEdge)
  else pure (a.firstEdge, p.edges)

/-- The words of a primitive. -/
def getPrim (r : Requester) (p : Pattern) (i : Nat) : Run (List Nat) := getWords r (p.primAt + 32 * i) 32

/-- The geometry of an edge. -/
def getGeo (r : Requester) (p : Pattern) (joints : List Joint) (e : Nat) : Run EdgeGeo := do
  let ed ← getEdge r p e
  let a ← getNode r p ed.src
  let b ← getNode r p ed.dst
  let f ← getPrim r p ed.prim
  pure (edgeGeo joints a.q b.q f ed.rev)

/-- The partition of a node, by the record's field. -/
def getNodePartition (r : Requester) (p : Pattern) (n : Nat) : Run Nat := do
  let a ← getNode r p n
  pure a.partition

/-! ## The image header (R136) -/

/-- Byte `i` onward, `n` bytes, of the header words, little-endian (R122). -/
def headBytes (ws : List Word) (i n : Nat) : Nat := spanBits ws (8 * i) (8 * n)

/-- A count or length field (R80, R82): all ones, zero, beyond its limit; DETAIL_A is its byte offset. -/
def countField (ws : List Word) (at_ len limit : Nat) : Check Unit := do
  let v := headBytes ws at_ len
  need (v != 2 ^ (8 * len) - 1) 0x0107 at_
  need (v != 0) 0x0108 at_
  need (v ≤ limit) 0x0106 at_

/-- Reserved bytes are zero. -/
def zeroField (ws : List Word) (at_ len : Nat) : Check Unit := need (headBytes ws at_ len == 0) 0x0105 at_

/-- A field lies in a range. -/
def rangeField (ws : List Word) (at_ len lo hi : Nat) : Check Unit :=
  need (lo ≤ headBytes ws at_ len && headBytes ws at_ len ≤ hi) 0x0105 at_

/-- A 64-bit length, and its least value. -/
def lengthField (ws : List Word) (at_ len lo : Nat) : Check Unit := do
  countField ws at_ len (2 ^ (8 * len))
  need (lo ≤ headBytes ws at_ len) 0x0105 at_

/-- Step 1 of R140. -/
def headerFields (h : List Word) : Check Unit := do
  zeroField h 6 2
  countField h 8 4 262144
  countField h 12 4 2097152
  countField h 16 2 4096
  countField h 18 1 16
  rangeField h 19 1 0 3
  rangeField h 20 4 5000 50000
  countField h 36 4 2147483648
  countField h 40 4 2147483648
  zeroField h 44 4
  lengthField h 64 8 181
  zeroField h 72 24
  eachCheck (fun i => lengthField h (104 + 12 * i) 4 1) (List.range 8)
  zeroField h 192 64
  zeroField h 384 128

/-- OFFSET and LENGTH of section s, 1 to 8. -/
def sectionOf (h : List Word) (s : Nat) : Nat × Nat := (headBytes h (84 + 12 * s) 8, headBytes h (92 + 12 * s) 4)

/-- The lengths that R136 gives sections 1 to 8. -/
def sectionLengths (h : List Word) : List Nat :=
  let nc := headBytes h 8 4
  let ec := headBytes h 12 4
  [4 * headBytes h 18 1, nc, ceilDiv ec 2, 32 * headBytes h 16 2, ceilDiv ec 8, ceilDiv (headBytes h 36 4) 8, 1048576,
   ceilDiv (headBytes h 40 4) 8]

/-- Two spans (offset, length) do not overlap. -/
def disjoint (a b : Nat × Nat) : Bool := a.1 + a.2 ≤ b.1 || b.1 + b.2 ≤ a.1

/-- Checks 1 and 2 of R142. -/
def headerChecks (h : List Word) : Check Unit := do
  let secs := (List.range 8).map fun i => sectionOf h (i + 1)
  need (headBytes h 0 4 == 0x46545031 && headBytes h 4 2 == 1) 0x0302 1
  need (secs.map (·.2) == sectionLengths h &&
    secs.all (fun x => 181 ≤ x.1 && x.1 + x.2 ≤ headBytes h 64 8) &&
    ((List.range 8).all fun i => (List.range i).all fun k => disjoint (nth secs i (0, 0)) (nth secs k (0, 0))) &&
    headBytes h 36 4 == headBytes h 40 4) 0x0302 2

/-! ## Structure checks 3 to 21 (R142) -/

/-- What the checks run on: the header and the words of the eight sections. -/
structure Image where
  head : List Word
  secs : List (List Word)
  deriving DecidableEq, Repr

/-- The words of section s. -/
def Image.sec (m : Image) (s : Nat) : List Word := nth m.secs (s - 1) []

def Image.nodes (m : Image) : Nat := headBytes m.head 8 4
def Image.edges (m : Image) : Nat := headBytes m.head 12 4
def Image.prims (m : Image) : Nat := headBytes m.head 16 2
def Image.parts (m : Image) : Nat := headBytes m.head 18 1
def Image.total (m : Image) : Nat := headBytes m.head 36 4

/-- Partition, node and edge records of an image as numbers, and list entries of 32 bits. -/
def Image.part (m : Image) (i : Nat) : Nat := spanBits (((m.sec 1).drop (4 * i)).take 4) 0 1024
def Image.nodeRaw (m : Image) (n : Nat) : Nat := (nth (m.sec 2) n 0).toNat
def Image.node (m : Image) (n : Nat) : Node := nodeOf (m.nodeRaw n)
def Image.edgeRaw (m : Image) (e : Nat) : Nat := Word.get (nth (m.sec 3) (e / 2) 0) (128 * (e % 2)) 128
def Image.edge (m : Image) (e : Nat) : Edge := edgeOf (m.edgeRaw e)
def Image.prim (m : Image) (i : Nat) : List Nat := (((m.sec 4).drop (32 * i)).take 32).map (·.toNat)
def Image.entry (m : Image) (s k : Nat) : Nat := lane32 (nth (m.sec s) (k / 8) 0) (k % 8)

/-- FIRST_EDGE of node n; EDGE_COUNT one past the last node. -/
def Image.firstEdge (m : Image) (n : Nat) : Nat := if n < m.nodes then (m.node n).firstEdge else m.edges

/-- The list of entry k of a directory section (5 or 7) of `n` entries: first and end. -/
def Image.list (m : Image) (dir n k : Nat) : Nat × Nat :=
  (m.entry dir k, if k + 1 < n then m.entry dir (k + 1) else m.total)

/-- The partition whose node range holds a node. -/
def Image.partitionAt (m : Image) (n : Nat) : Option Nat :=
  (List.range m.parts).find? fun i => bits (m.part i) 0 32 ≤ n && n < bits (m.part i) 32 32

/-- The lowest index below n that fails a test. -/
def firstBad (n : Nat) (ok : Nat → Bool) : Option Nat := (List.range n).find? fun i => !ok i

/-- Entries of a list strictly ascend, with a bound and reserved bits zero; the lowest failing entry index. -/
def listBad (m : Image) (s wide bound : Nat) (l : Nat × Nat) : Option Nat :=
  ((List.range (l.2 - l.1)).map (l.1 + ·)).find? fun k =>
    !(m.entry s k < 2 ^ wide && m.entry s k < bound && (k == l.1 || m.entry s (k - 1) < m.entry s k))

/-- The lowest failing entry of every list of a section, in order. -/
def listsBad (m : Image) (dir s n wide bound : Nat) : Option Nat :=
  (List.range n).findSome? fun i => listBad m s wide bound (m.list dir n i)

/-- The lowest entry beyond the last of a section of 32-bit entries that is not zero. -/
def padBad (m : Image) (s n : Nat) : Option Nat :=
  (firstBad (8 * (m.sec s).length - n) fun i => m.entry s (n + i) == 0).map (n + ·)

/-- A partition's joint records (check 4). -/
def jointsOk (r : Nat) : Bool :=
  let mask := bits r 64 8
  let j := maskJoints mask
  mask != 0 && mask + 1 == 2 ^ j &&
  (List.range 8).all fun i =>
    let w := bits r (512 + 64 * i) 64
    let jt := jointOf w
    if i < j then
      jt.min < jt.max && 1 ≤ jt.vmax && (if jt.prismatic then 1 ≤ jt.quantum else jt.quantum == 0) && w >>> 57 == 0
    else w == 0

/-- Voxels of the grid. -/
def voxels : Nat := 8388608

/-- The pairs (voxel, edge) of the forward lists, and of the reverse lists (R135). -/
def Image.fwdPairs (m : Image) : List (Nat × Nat) :=
  (List.range m.edges).flatMap fun e =>
    let l := m.list 5 m.edges e
    (List.range (l.2 - l.1)).map fun i => (bits (m.entry 6 (l.1 + i)) 0 23, e)

def Image.revPairs (m : Image) : List (Nat × Nat) :=
  (List.range voxels).flatMap fun v =>
    let l := m.list 7 voxels v
    (List.range (l.2 - l.1)).map fun i => (v, bits (m.entry 8 (l.1 + i)) 0 21)

/-- PAIR_SUM1 and PAIR_SUM2 of a list of pairs. -/
def pairSums (l : List (Nat × Nat)) : Nat × Nat :=
  l.foldl (fun (a, b) (v, e) => let p := v * 2097152 + e; (m64 (a + p), m64 (b + p * p))) (0, 0)

/-- The lowest failing index of check c, 3 to 20; none where it passes. Of two edges of one node that check 11 finds equal, the later one
is the failing record (DESIGN CHOICE, assumption log 100). -/
def structureCheck (m : Image) (c : Nat) : Option Nat :=
  let edgeJoints (e : Edge) : Option (List Joint) := (m.partitionAt e.src).map fun p => (partitionOf (m.part p)).joints
  let edgeKnown (e : Edge) : Bool := e.src < m.nodes && e.dst < m.nodes && e.prim < m.prims
  let geo (e : Edge) (js : List Joint) : EdgeGeo := edgeGeo js (m.node e.src).q (m.node e.dst).q (m.prim e.prim) e.rev
  match c with
  | 3 => firstBad m.parts fun i =>
      let r := m.part i
      bits r 0 32 == (if i == 0 then 0 else bits (m.part (i - 1)) 32 32) && bits r 0 32 < bits r 32 32 && bits r 72 8 ≤ 4 &&
      bits r 80 48 == 0 && bits r 192 320 == 0 && (i + 1 < m.parts || bits r 32 32 == m.nodes)
  | 4 => firstBad m.parts fun i => jointsOk (m.part i)
  | 5 => firstBad m.nodes fun n =>
      let f := m.firstEdge n
      (n != 0 || f == 0) && f ≤ m.edges && (n == 0 || m.firstEdge (n - 1) ≤ f) && m.firstEdge (n + 1) ≤ f + 32
  | 6 => firstBad m.nodes fun n =>
      let w := m.nodeRaw n
      m.partitionAt n == some (bits w 152 4) && bits w 150 2 == 0 && w >>> 157 == 0
  | 7 => firstBad m.nodes fun n =>
      let js := ((m.partitionAt n).map fun p => (partitionOf (m.part p)).joints).getD []
      (List.range 8).all fun j =>
        let q := nth (m.node n).q j 0
        match js[j]? with
        | some jt => jt.min ≤ q && q ≤ jt.max
        | none => q == 0
  | 8 => firstBad (2 * (m.sec 3).length) fun e =>
      let w := m.edgeRaw e
      let src := (m.edge e).src
      if e < m.edges then
        src < m.nodes && m.firstEdge src ≤ e && e < m.firstEdge (src + 1) &&
        bits w 18 6 == 0 && bits w 42 6 == 0 && bits w 84 4 == 0 && bits w 105 23 == 0
      else w == 0
  | 9 => firstBad m.edges fun i =>
      let e := m.edge i
      e.src < m.nodes && e.dst < m.nodes && e.src != e.dst && m.partitionAt e.src == m.partitionAt e.dst
  | 10 => firstBad m.edges fun i => let e := m.edge i; e.cost != 0 && e.duration != 0 && e.prim < m.prims
  | 11 => firstBad m.edges fun i =>
      let e := m.edge i
      (List.range (min i 32)).all fun d =>
        let x := m.edge (i - 1 - d)
        !(x.src == e.src && x.dst == e.dst && x.prim == e.prim && x.rev == e.rev)
  | 12 => firstBad m.edges fun i =>
      let e := m.edge i
      match edgeJoints e with
      | some js => !edgeKnown e || !(geo e js).out
      | none => true
  | 13 => firstBad m.edges fun i =>
      let e := m.edge i
      match edgeJoints e with
      | some js => !edgeKnown e || velocityBound js (geo e js) ≤ e.duration
      | none => true
  | 14 => firstBad m.prims fun i => (List.range 8).all fun j =>
      primValue (m.prim i) j 0 == 0 && primValue (m.prim i) j 63 == 16384
  | 15 => firstBad 1 fun _ => (List.range 8).all fun j => (List.range 64).all fun i =>
      primValue (m.prim 0) j i == (((16384 * i + 31) / 63 : Nat) : Int)
  | 16 => firstBad (8 * (m.sec 5).length) fun e =>
      if e < m.edges then
        let l := m.list 5 m.edges e
        (e != 0 || l.1 == 0) && l.1 + 1 ≤ l.2 && l.2 ≤ l.1 + 65536
      else m.entry 5 e == 0
  | 17 => (listsBad m 5 6 m.edges 23 voxels).or (padBad m 6 m.total)
  | 18 => firstBad voxels fun v =>
      let l := m.list 7 voxels v
      (v != 0 || l.1 == 0) && l.1 ≤ l.2 && l.2 ≤ l.1 + 65536
  | 19 => (listsBad m 7 8 voxels 21 m.edges).or (padBad m 8 m.total)
  | 20 =>
    let fwd := m.fwdPairs
    firstBad voxels fun v =>
      let l := m.list 7 voxels v
      l.2 - l.1 == (fwd.filter (·.1 == v)).length
  | _ => none

/-- The section of a check (R142). -/
def checkSection (c : Nat) : Nat :=
  if c ≤ 4 then 1 else if c ≤ 7 then 2 else if c ≤ 13 then 3 else if c ≤ 15 then 4
  else if c == 16 then 5 else if c == 17 then 6 else if c == 18 || c == 20 then 7 else 8

/-- The lowest failing check of 3 to 21, its section and the lowest failing index within it (R141). -/
def structureFault (m : Image) : Option (Nat × Nat × Nat) :=
  match ((List.range 18).map (· + 3)).findSome? fun c => (structureCheck m c).map fun i => (c, checkSection c, i) with
  | some x => some x
  | none =>
    let want := (headBytes m.head 48 8, headBytes m.head 56 8)
    if pairSums m.fwdPairs != want then some (21, 6, 0)
    else if pairSums m.revPairs != want then some (21, 8, 0)
    else none

/-! ## Signature (R137) and digests (R138) -/

/-- The header and signature block under the key digest: DETAIL_A 1 for the key, 2 for the signature. Non-zero bytes
5,261 to 5,279, for which R137 names no outcome, count as a signature that does not hold (DESIGN CHOICE, assumption log 98). -/
def signatureCheck (key : Option (BitVec 512)) (head block : List Word) : Check Unit := do
  let b := wordsBytes block
  let pub := b.take 1952
  need (key == some (BitVec.ofNat 512 (ofBytes (shake64 pub)))) 0x0301 1
  need (mlDsaVerify pub (wordsBytes head) ((b.drop 1952).take 3309) &&
    ((b.drop 5261).take 19).all (· == 0)) 0x0301 2

/-- The digest that a Pattern-key slot holds: none while unprovisioned, and none in a life cycle that treats every slot so (R507). -/
def State.patternKey (s : State) (slot : Nat) : Option (BitVec 512) :=
  match s.lcc.fuses.lifeCycle with
  | .manufacture | .provisioned | .field => nth s.lcc.fuses.patternKeys slot none
  | .blank | .returned | .scrapped => none

/-- IMAGE_DIGEST of sections (R138). -/
def imageDigest (secs : List (List Word)) : List Byte := shake64 (secs.flatMap sectionDigest)

/-- The digest test of R141: DETAIL_A 3, DETAIL_B the lowest section that differs from SECTION_DIGEST. -/
def digestCheck (m : Image) : Check Unit := do
  let given := (List.range 8).map fun i => headBytes m.head (320 + 8 * i) 8
  let low := if given.all (· == 0) then 0 else
    match firstIndex (fun (x : Nat × List Word) => x.1 != ofBytes ((sectionDigest x.2).take 8)) (given.zip m.secs) 0 with
    | some i => i + 1
    | none => 0
  need (ofBytes (imageDigest m.secs) == headBytes m.head 256 64) 0x0301 3 low

/-! ## Slots and the BSP area (R120) -/

/-- The LPDDR5 regions of Pattern slot `n`: owner code 6 SLOT_A, 7 SLOT_B (R381). -/
def State.slotRegions (s : State) (n : Nat) : List Nat :=
  (List.range s.memCtl.regions).filter fun p => s.devField 6 (94 + p) 0 == 6 + n

/-- First key and words of Pattern slot `n`; zero words where it has no region. -/
def State.slotSpan (s : State) (n : Nat) : Span :=
  let rs := s.slotRegions n
  ⟨s.lpStart (rs.headD 0), (rs.map fun p => lpWords (s.lpCode p)).foldl (· + ·) 0⟩

/-- The regions of the BSP Pattern area. -/
def State.areaRegions (s : State) : List Nat := ((List.range 92).map (· + 4)).filter fun n => s.devField 6 (n - 3) 0 == 5

/-- MiB that a table of `n` words takes. -/
def tableRegions (n : Nat) : Nat := max 1 (ceilDiv n 32768)

/-- The Pattern that an image describes, with its tables in the area that begins at `area`. -/
def patternOf (slot base area : Nat) (h : List Word) : Pattern :=
  let lens := sectionLengths h
  let nodeAt := area + 32768
  let edgeAt := nodeAt + 32768 * tableRegions (nth lens 1 0)
  let at_ (i : Nat) : Nat := base + (sectionOf h i).1
  { slot := slot, sig := BitVec.ofNat 64 (headBytes h 256 8), nodes := headBytes h 8 4, edges := headBytes h 12 4,
    primitives := headBytes h 16 2, partitions := headBytes h 18 1, pitch := headBytes h 20 4,
    originX := signed 32 (headBytes h 24 4), originY := signed 32 (headBytes h 28 4), originZ := signed 32 (headBytes h 32 4),
    fwdTotal := headBytes h 36 4, revTotal := headBytes h 40 4, partAt := area, nodeAt := nodeAt, edgeAt := edgeAt,
    primAt := edgeAt + 32768 * tableRegions (nth lens 2 0), fwdDirAt := at_ 5, fwdAt := at_ 6, revDirAt := at_ 7, revAt := at_ 8 }

/-- Step 3 of R140. -/
def sizeCheck (s : State) (slot : Nat) (h : List Word) : Check Unit := do
  let lens := sectionLengths h
  let regions := 1 + ceilDiv (nth lens 1 0) 32768 + ceilDiv (nth lens 2 0) 32768 + ceilDiv (nth lens 3 0) 32768
  need (headBytes h 64 8 ≤ (s.slotSpan slot).len) 0x0303 1
  need (regions ≤ s.areaRegions.length && regions ≤ 45) 0x0303 2

/-! ## Install and retirement (R139 to R144) -/

/-- Activation: every edge is blocked in every slice until it has been counted (R140 step 7, R185). -/
def activatePattern (p : Pattern) (s : State) : State :=
  { s with pat.active := some p, trc.valid := 0, trc.fault := false, trc.fullCount := none, trc.rotations := [],
           trc.recounts := [], trc.overflow := none }

/-- Read the eight sections of an image at a base key. -/
def readSections (r : Requester) (base : Nat) (h : List Word) : List Nat → State → State × List (List Got)
  | [], s => (s, [])
  | i :: t, s =>
    let (s, gs) := readWords r (base + (sectionOf h i).1) (sectionOf h i).2 s
    let (s, l) := readSections r base h t s
    (s, gs :: l)

/-- Run a program for each of a list's values in order, up to the first that fails. -/
def eachRun {α : Type} (f : α → Run Unit) : List α → Run Unit
  | [] => pure ()
  | x :: t => do
    f x
    eachRun f t

/-- Step 6 of R140 for one section: a Move Engine copies it to its place in the BSP Pattern area.  At a word that it cannot read it does what
R401 says, and no Pattern is active afterwards; which engine works for the firmware is free (assumption log 70). -/
def copySection (base : Nat) (h : List Word) (x : Nat × Nat) : Run Unit := fun s =>
  let n := (Config.freeValue s.freeCount).toNat % 16
  let sec := sectionOf h x.1
  match moveWords { num := 78 + n } x.2 ((List.range sec.2).map (base + sec.1 + ·)) { s with freeCount := s.freeCount + 1 } with
  | (s, _, none) => (.ok (), s)
  | (s, gs, some k) =>
    let s := poisonWords (x.2 + gs.length) (sec.2 - gs.length) (haltEngine n k s)
    (.error { status := .poisoned, reason := 0x0A07 }, { s with pat.active := none })

/-- Steps 1 to 7 of R140. -/
def installSteps (slot : Nat) : Run Unit := do
  let r : Requester := { num := 1 }
  let s0 ← get
  let sp := s0.slotSpan slot
  ensure (sp.len != 0) 0x0303 1
  let h ← getAll r sp.key 16 1
  checkOp fun _ => headerFields h
  checkOp fun _ => headerChecks h
  checkOp fun s => sizeCheck s slot h
  let block ← getAll r (sp.key + 16) 165 4
  checkOp fun s => signatureCheck (s.patternKey (headBytes h 19 1)) h block
  let secs ← stateOp (readSections r sp.key h [1, 2, 3, 4, 5, 6, 7, 8])
  if secs.any anyBad then poisoned 5
  let m : Image := ⟨h, secs.map gotData⟩
  checkOp fun _ => digestCheck m
  match structureFault m with
  | some (c, sec, i) =>
    change fun s => writeEvent { s.event 0x0302 0xFE with a := c, b := sec, value := i } s
    throw { reason := 0x0302, detailA := c, detailB := sec }
  | none =>
    let area := 32768 * s0.areaRegions.headD 0
    let p := patternOf slot sp.key area h
    eachRun (copySection sp.key h) [(1, p.partAt), (2, p.nodeAt), (3, p.edgeAt), (4, p.primAt)]
    change (activatePattern p)

/-- Count the end of an install (TRC_PATTERN_INSTALLS, LAST_RESULT). -/
def countInstall (reason : Option Nat) (s : State) : State :=
  match reason with
  | none => { s with pat.installsOk := satAdd 65535 s.pat.installsOk 1 }
  | some c => { s with pat.installsFailed := satAdd 65535 s.pat.installsFailed 1, pat.lastResult := BitVec.ofNat 16 c }

/-- PATTERN_INSTALL of a slot (R139 to R141). A command that R139 refuses has begun no install and is not counted (DESIGN CHOICE,
assumption log 99). -/
def patternInstall (slot : Nat) (s : State) : State × Check Unit :=
  if s.activeJob.isSome then (s, refuse 0x0112)
  else match runProg (installSteps slot) s with
    | (t, .ok _) => (countInstall none t, .ok ())
    | (t, .error f) => (countInstall (some f.reason) t, .error f)

/-- PATTERN_RETIRE (R139, R144). -/
def patternRetire (s : State) : Check State := do
  need s.activeJob.isNone 0x0112
  need s.pat.active.isSome 0x0304
  .ok { s with pat.active := none }

/-- The Pattern slot region that a key lies in is write-protected (R121). -/
def State.patternProtected (s : State) (k : Nat) : Bool :=
  match s.pat.active with
  | some p => let sp := s.slotSpan p.slot; sp.key ≤ k && k < sp.key + sp.len
  | none => false

end Sys2Proof.Machine
end

