-- ==== Sys2Proof/Machine/Tracer.lean ====
section
/-!
DEFINITION. The Tracer (file 07): edge records (R177, R178), blocking (R179), the add (R180), applies (R168, R181, R186, R187, R189),
counts from scratch (R182 to R186), reads by epoch (R188), EDGE_READ (R192), errors (R196, R197) and overdue counts (R198).
-/

namespace Sys2Proof.Machine

open Sys2Proof

/-! ## Edge records (R177, R178) -/

/-- The key of the edge-state word that holds edge e, and the half of it. -/
def edgeKey (e : Nat) : Nat := memKey memEdge 0 (64 * bits e 7 14 + bits e 0 6)
def edgeHalf (e : Nat) : Nat := bits e 6 1

def recCount (r s : Nat) : Nat := bits r (6 * s) 6
def recSat (r s : Nat) : Bool := r.testBit (96 + s)
def recPend (r s : Nat) : Bool := r.testBit (112 + s)

/-- Replace `len` bits of a number from bit `lo`. -/
def setBits (n lo len v : Nat) : Nat := n - (bits n lo len) <<< lo + (v % 2 ^ len) <<< lo

/-- The record with slot s given a count, SAT and PEND. -/
def setSlot (r s count : Nat) (sat pend : Bool) : Nat :=
  setBits (setBits (setBits r (6 * s) 6 count) (96 + s) 1 (b2n sat)) (112 + s) 1 (b2n pend)

/-- Queue a recount of (e, s); a full queue sets OVERFLOW (R184). -/
def queueRecount (e slot since : Nat) (s : State) : State :=
  if s.trc.recounts.length < 4096 then { s with trc.recounts := s.trc.recounts ++ [⟨e, slot, since⟩] }
  else match s.trc.overflow with
    | some _ => s
    | none => { s with trc.overflow := some s.now }

/-- The edges of the word that holds edge e: half 0 and half 1. -/
def wordEdges (e : Nat) : List Nat := let lo := e - 64 * edgeHalf e; [lo, lo + 64]

/-- An edge-state word that cannot be read: rewritten as blocked and unknown, with 32 recounts queued (R196). -/
def rewriteEdgeWord (e : Nat) (s : State) : State :=
  let s := writeWord (edgeKey e) (BitVec.allOnes 256) s
  let s := { s with trc.rewrites := satAdd 65535 s.trc.rewrites 1 }
  (wordEdges e).foldl (fun s x => (List.range 16).foldl (fun s slot => queueRecount x slot s.now s) s) s

/-- Read the word that holds edge e on behalf of a requester; none with the poison mark, the word then rewritten (R196). -/
def readEdgeWord (r : Requester) (e : Nat) (s : State) : State × Option Nat :=
  let (s, g) := readWord { r with detail := 1 } (edgeKey e) s
  if g.bad then (rewriteEdgeWord e s, none) else (s, some g.data.toNat)

/-- The record of edge e in its word. -/
def recordOf (e w : Nat) : Nat := bits w (128 * edgeHalf e) 128

/-- The word of edge e with its record replaced. -/
def withRecord (e w rec : Nat) : Nat := setBits w (128 * edgeHalf e) 128 rec

/-- Read the record of edge e on behalf of a requester. -/
def readRecord (r : Requester) (e : Nat) (s : State) : State × Option Nat :=
  let (s, w) := readEdgeWord r e s
  (s, w.map (recordOf e))

/-- The group of update units of edge e: its bank is e[5:0], and a group has eight (R178, R369). -/
def edgeGroup (e : Nat) : Nat := e % 64 / 8

/-- The groups of update units on which a slice of the self-test runs. -/
def State.testedGroups (s : State) : BitVec 8 :=
  s.sm.running.foldl (fun g r => if r.slice.cls == .tracerGroup then g ||| BitVec.ofNat 8 (2 ^ r.slice.inst.val) else g) 0

/-- Read the record of edge e for an item, and note its group. -/
def askRecord (r : Requester) (e : Nat) (s : State) : State × Option Nat :=
  readRecord r e { s with trc.readGroups := s.trc.readGroups ||| BitVec.ofNat 8 (2 ^ edgeGroup e) }

/-- An operation that may read edge state: where it reads a bank of a group under test, it has waited since before it began, and nothing has
happened yet; `wait` is what it gives then (R371). -/
def untested {α : Type} (wait : α) (f : State → State × α) (s : State) : State × α :=
  match f { s with trc.readGroups := 0 } with
  | (t, a) => if t.trc.readGroups &&& s.testedGroups == 0 then ({ t with trc.readGroups := s.trc.readGroups }, a) else (s, wait)

/-- The Tracer's own requester. -/
def tracerReq : Requester := { num := 73 }

/-- One read-modify-write of the record of edge e (R180); a word that cannot be read is rewritten and left so (R196). -/
def modifyRecord (e : Nat) (f : Nat → Nat) (s : State) : State :=
  let (s, w) := readEdgeWord tracerReq e s
  match w with
  | some w => writeWord (edgeKey e) (word (withRecord e w (f (recordOf e w)))) s
  | none => s

/-! ## Blocking (R179) -/

/-- Is a record blocked in relative slice k of an epoch? -/
def blockedIn (s : State) (e : Epoch) (rec k : Nat) : Bool :=
  let slot := (e.t0 + k) % 16
  e.forced.getLsbD k || !s.trc.valid.getLsbD slot || recSat rec slot || recCount rec slot != 0

/-- The 16-bit mask of blocked relative slices. -/
def blockedMask (s : State) (e : Epoch) (rec : Nat) : Nat :=
  (List.range 16).foldl (fun acc k => acc + (if blockedIn s e rec k then 2 ^ k else 0)) 0

/-! ## The add (R180) -/

/-- What an add does to one record, and whether it queues a recount, saturates or underflows. -/
structure AddOut where
  out : Nat
  queue : Bool
  saturated : Bool
  underflow : Bool
  deriving DecidableEq, Repr

/-- R180 on a record. -/
def addRecord (rec slot : Nat) (up : Bool) : AddOut :=
  let n := recCount rec slot
  if recSat rec slot then
    if !up && !recPend rec slot then ⟨setSlot rec slot n true true, true, false, false⟩ else ⟨rec, false, false, false⟩
  else if up then ⟨setSlot rec slot (n + 1) (n + 1 == 63) (recPend rec slot), false, n + 1 == 63, false⟩
  else if n == 0 then ⟨setSlot rec slot 63 true true, true, false, true⟩
  else ⟨setSlot rec slot (n - 1) false (recPend rec slot), false, false, false⟩

/-- Apply an add to the record of edge e. -/
def addEdge (e slot : Nat) (up : Bool) (s : State) : State :=
  let (s, w) := readEdgeWord tracerReq e s
  match w with
  | none => s
  | some w =>
    let o := addRecord (recordOf e w) slot up
    let s := if o.out == recordOf e w then s else writeWord (edgeKey e) (word (withRecord e w o.out)) s
    let s := if o.queue then queueRecount e slot s.now s else s
    { s with trc.saturations := s.trc.saturations + b2n o.saturated, trc.underflows := s.trc.underflows + b2n o.underflow }

/-! ## The Pattern in LPDDR5 (R133, R134, R197) -/

/-- Pattern fault (R197): every VALID bit is cleared. -/
def patternFault (s : State) : State := { s with trc.fault := true, trc.valid := 0 }

/-- The words of a section from key k on, `n` of them, each read once; none where one carries the poison mark. -/
def patternWords (k : Nat) : Nat → State → State × Option (List Word)
  | 0, s => (s, some [])
  | n + 1, s =>
    let (s, g) := readWord { tracerReq with detail := 2 } k s
    if g.bad then (s, none) else
    let (s, l) := patternWords (k + 1) n s
    (s, l.map (g.data :: ·))

/-- The 32-bit entries of words. -/
def wordLanes (ws : List Word) : List Nat := ws.flatMap fun w => (List.range 8).map (lane32 w)

/-- Entries `first` onward of a list section whose first word is at key k, `n` of them; none where a word carries the poison mark. -/
def patternEntries (k first n : Nat) (s : State) : State × Option (List Nat) :=
  let (s, ws) := patternWords (k + first / 8) (if n == 0 then 0 else (first + n - 1) / 8 - first / 8 + 1) s
  (s, ws.map fun ws => ((wordLanes ws).drop (first % 8)).take n)

/-- The list of directory entry i, of `n`: reverse list of a voxel, or forward list of an edge. -/
def patternList (dir lists n total mask i : Nat) (s : State) : State × Option (List Nat) :=
  let (s, ends) := patternEntries dir i (if i + 1 < n then 2 else 1) s
  match ends with
  | none => (s, none)
  | some d =>
    let a := nth d 0 0
    let (s, l) := patternEntries lists a (nth d 1 total - a) s
    (s, l.map fun l => l.map (· % 2 ^ mask))

/-- The edges whose swept volumes hold voxel v. -/
def reverseList (p : Pattern) (v : Nat) (s : State) : State × Option (List Nat) :=
  patternList p.revDirAt p.revAt voxels p.revTotal 21 v s

/-- The voxels of the swept volume of edge e. -/
def forwardList (p : Pattern) (e : Nat) (s : State) : State × Option (List Nat) :=
  patternList p.fwdDirAt p.fwdAt p.edges p.fwdTotal 23 e s

/-! ## Fan-out (R181, R183, R186) -/

/-- Progress of an apply: bits changed, adds issued. -/
structure ApplyCount where
  changes : Nat := 0
  adds : Nat := 0
  deriving DecidableEq, Repr

/-- The adds of a slot are discarded while a full count that covers the slot has not reached their edges: it will read the new bits
(R183, R186). -/
def State.discardsAdds (s : State) (slot : Nat) : Bool := s.trc.fullCount.isSome && !s.trc.rotations.contains slot

/-- Fan a changed bit out to the reverse list of its voxel (R181, R183); in a Pattern fault no add is issued (R197; assumption log 71). -/
def fanOut (p : Option Pattern) (slot v : Nat) (up : Bool) (n : ApplyCount) (s : State) : State × ApplyCount :=
  let n := { n with changes := n.changes + 1 }
  match p with
  | none => (s, n)
  | some p =>
    if s.trc.fault then (s, n)
    else
      let (s, l) := reverseList p v s
      match l with
      | none => (patternFault s, n)
      | some es =>
        (if s.discardsAdds slot then s else es.foldl (fun s e => addEdge e slot up s) s, { n with adds := n.adds + es.length })

/-- Write a word of the bitmap and fan out its changed bits in ascending voxel order (R187). -/
def bitmapWord (c : OccCtx) (p : Option Pattern) (fan : Bool) (t i : Nat) (new : Option Nat) (n : ApplyCount) (s : State) :
    State × ApplyCount :=
  let (s, old) := layerWord c (c.bitmapAt t i) s
  let s := putLayer (c.bitmapAt t i) new s
  match old, new with
  | some a, some b =>
    if !fan then (s, { n with changes := n.changes + ((List.range 256).filter fun u => a.testBit u != b.testBit u).length })
    else (List.range 256).foldl (fun (s, n) u =>
      if a.testBit u == b.testBit u then (s, n) else fanOut p (t % 16) (256 * i + u) (b.testBit u) n s) (s, n)
  | _, _ => (s, n)

/-- One log entry of an apply (R181). -/
def applyEntry (c : OccCtx) (p : Option Pattern) (t0 rec : Nat) (n : ApplyCount) (s : State) : State × ApplyCount :=
  let d := (bits rec 24 8 + 256 - t0 % 256) % 256
  if 15 < d then (s, n)
  else
    let v := bits rec 0 23
    let set := rec.testBit 23
    let k := c.bitmapAt (t0 + d) (v / 256)
    let (s, old) := layerWord c k s
    match old with
    | none => (s, n)
    | some w =>
      if w.testBit (v % 256) == set then (s, n)
      else
        let s := writeWord k (word (w ^^^ 2 ^ (v % 256))) s
        fanOut p ((t0 + d) % 16) v set n s

/-- The log entries of an epoch, in log order; each log word is read once, and the entries of one that carries poison are lost. -/
def applyLog (c : OccCtx) (p : Option Pattern) (e : Epoch) (n : ApplyCount) (s : State) : State × ApplyCount :=
  (List.range (ceilDiv e.fill 8)).foldl (fun (s, n) i =>
    let (s, w) := layerWord c (c.logAt e.log i) s
    match w with
    | some w => (List.range (min 8 (e.fill - 8 * i))).foldl (fun (s, n) l => applyEntry c p e.t0 (bits w (32 * l) 32) n s) (s, n)
    | none => (s, n)) (s, n)

/-- The absolute slice that a slot held at the last applied epoch. -/
def slotSlice (e : Epoch) (slot : Nat) : Nat := e.t0 + (slot + 16 - e.t0 % 16) % 16

/-- Rotate a slot: not valid, and a rotation count queued behind the others (R185).  The time for which a rotation keeps it not valid runs on
where a rotation count of it is queued already (R198). -/
def rotateSlot (slot : Nat) (s : State) : State :=
  { s with trc.valid := s.trc.valid &&& ~~~(1#16 <<< slot)
           trc.rotations := s.trc.rotations.filter (· != slot) ++ [slot]
           trc.rotatedAt := if s.trc.rotations.contains slot then s.trc.rotatedAt else s.trc.rotatedAt.set slot s.now }

/-- The recomputation of a REBUILD epoch, slot by slot (R168 step 2, R186, R187).  Gives the slots rotated. -/
def rebuild (c : OccCtx) (p : Option Pattern) (e : Epoch) (n : ApplyCount) (s : State) : State × ApplyCount × List Nat :=
  (List.range 16).foldl (fun (s, n, rot) k =>
    let t := e.t0 + k
    let slot := t % 16
    let same := match s.occ.applied with | some a => slotSlice a slot == t | none => false
    let first := s.trc.firstApply
    let s := if first || same then s else rotateSlot slot s
    let (s, n) := (List.range sliceWords).foldl (fun (s, n) i =>
      let (s, w) := occWord c e.t0 t i s
      bitmapWord c p (same && !first) t i w n s) (s, n)
    (s, n, if first || same then rot else rot ++ [slot])) (s, n, [])

/-- Step 3 of R168: the staging image becomes the new far slice, and its slot is counted from scratch. -/
def takeStaging (c : OccCtx) (e : Epoch) (n : ApplyCount) (s : State) : State × ApplyCount × List Nat :=
  match s.occ.applied with
  | some a =>
    if e.t0 == a.t0 + 1 then
      let slot := (e.t0 + 15) % 16
      let s := rotateSlot slot s
      let (s, n) := (List.range sliceWords).foldl (fun (s, n) i =>
        let (s, w) := layerWord c (c.stagingAt i) s
        bitmapWord c none false (e.t0 + 15) i w n s) (s, n)
      (s, n, [slot])
    else (s, n, [])
  | none => (s, n, [])

/-! ## EPOCH_APPLY (R168, R189, R191, R199) -/

/-- An admitted CHECK_B or STITCH of an older cycle that is not DONE (R168 step 1). -/
def State.applyWaits (s : State) (it : Item) : Bool :=
  s.shu.items.any fun x =>
    x.slot == it.slot && (Entry.op x.entry == 0x0901 || Entry.op x.entry == 0x0902) && x.incomplete &&
      x.tag != it.tag && (it.tag - x.tag).toNat < 2147483648

/-- The report of R191. -/
def applyReport (e : Epoch) (n : ApplyCount) (saturated underflows : Nat) (rot : List Nat) (full superseded : Bool)
    (duration : Nat) : Word :=
  word (at_ e.number.toNat 0 32 ||| at_ n.changes 32 32 ||| at_ n.adds 64 32 ||| at_ (min saturated 65535) 96 16 |||
    at_ (min underflows 65535) 112 16 ||| at_ (rot.foldl (fun acc x => acc ||| 2 ^ x) 0) 128 16 ||| at_ (b2n e.rebuild) 144 1 |||
    at_ (b2n full) 145 1 ||| at_ (b2n superseded) 146 1 ||| at_ (b2n (saturated != 0)) 147 1 ||| at_ duration 192 32)

/-- The bitmap writes and adds of an apply, from its first bitmap write to the opening of its gate. -/
def applyEpoch (c : OccCtx) (e : Epoch) (s : State) : State × ApplyCount × List Nat :=
  let p := s.pat.active
  let s := { s with trc.gate := none, occ.loadBad := false }
  let (s, n, rot) :=
    if e.rebuild then rebuild c p e {} s
    else
      let (s, n, rot) := takeStaging c e {} s
      let (s, n) := applyLog c p e n s
      (s, n, rot)
  let start := s.trc.firstApply && !s.trc.fault
  let s := { s with
    trc.fullCount := if start then some s.now else s.trc.fullCount
    trc.firstApply := false
    trc.gate := some e.number
    trc.appliedEpoch := e.number
    trc.adds := satAdd (2 ^ 64 - 1) s.trc.adds n.adds
    occ.applied := some e
    occ.committedApplied := true
    occ.superseded := false }
  (s, n, rot)

/-- The report of an apply goes to OPERAND0 where it is used (R191); its digest takes DURATION as zero (R479). -/
def writeReport (j : Job) (it : Item) (w : Word) (bad : Bool) (s : State) : State × Result :=
  match j.operandSpan it.entry 0 with
  | none => (s, if bad then poisonedResult else done)
  | some _ =>
    let s := (writeOut j it 0 0 [⟨w, bad⟩] s).1
    let d := digestGots j 0 0 [⟨w &&& ~~~(word (0xFFFFFFFF <<< 192)), bad⟩]
    (s, if bad then poisonedResult d else done .ok 0 0 0 d)

/-- EPOCH_APPLY for an item: the newest committed epoch.  DURATION is a time that the model leaves free. -/
def epochApply (c : OccCtx) (it : Item) (j : Job) (s : State) : State × Option Result :=
  match s.occ.committed with
  | none => (s, some done)
  | some e =>
    if s.occ.committedApplied then
      let (s, r) := writeReport j it (applyReport e {} 0 0 [] false false s.trc.lastDuration) false s
      (s, some r)
    else if s.applyWaits it then (s, none)
    else
      let first := s.trc.firstApply
      let fault := s.trc.fault
      let superseded := s.occ.superseded
      let sat0 := s.trc.saturations
      let und0 := s.trc.underflows
      let (s, n, rot) := applyEpoch c e s
      let sat := s.trc.saturations - sat0
      let duration := ((Config.freeValue s.freeCount).setWidth 32).toNat
      let s := { s with freeCount := s.freeCount + 1, trc.lastDuration := duration }
      let s := if sat == 0 then s else
        writeEvent { s.event 0x0305 73 with job := it.jobId, service := it.service, a := bits e.number.toNat 0 16,
                                            b := bits e.number.toNat 16 16, value := min sat 65535 } s
      let bad := s.occ.loadBad || s.trc.fault && !fault
      let (s, r) := writeReport j it
        (applyReport e n sat (s.trc.underflows - und0) rot (first && !s.trc.fault) superseded duration) bad s
      (s, some r)

/-! ## Counts from scratch (R182 to R186) -/

/-- Bit v of slot s of the bitmap; a word with the poison mark counts as occupied. -/
def bitmapBit (c : OccCtx) (slot v : Nat) (s : State) : State × Bool :=
  let (s, w) := layerWord c (c.bitmapAt slot (v / 256)) s
  (s, match w with | some n => n.testBit (v % 256) | none => true)

/-- The number of voxels of a list that are set in a slot. -/
def countSlot (c : OccCtx) (slot : Nat) : List Nat → State → State × Nat
  | [], s => (s, 0)
  | v :: t, s =>
    let (s, b) := bitmapBit c slot v s
    let (s, n) := countSlot c slot t s
    (s, n + b2n b)

/-- The slot fields at the end of a count (R182). -/
def countedSlot (rec slot n : Nat) : Nat := setSlot rec slot (min n 63) (63 ≤ n) false

/-- A slice of the self-test runs on a group of update units: no count starts (R371). -/
def State.tracerTested (s : State) : Bool := s.sm.running.any (·.slice.cls == .tracerGroup)

/-- The head of the recount queue is run, or dropped (R184); records at or above EDGE_COUNT are not used (R177). -/
def recount (c : OccCtx) (p : Pattern) (s : State) : State :=
  if s.trc.fullCount.isSome || s.trc.fault || s.tracerTested then s
  else match s.trc.recounts with
  | [] => s
  | x :: rest =>
    let s := { s with trc.recounts := rest }
    if p.edges ≤ x.edge then s
    else
    let (s, r) := readRecord tracerReq x.edge s
    match r with
    | none => s
    | some rec =>
      if !recPend rec x.slot then s
      else
        let (s, l) := forwardList p x.edge s
        match l with
        | none => patternFault s
        | some vs =>
          let (s, n) := countSlot c x.slot vs s
          let s := modifyRecord x.edge (countedSlot · x.slot n) s
          { s with trc.recountsDone := satAdd 4294967295 s.trc.recountsDone 1 }

/-- Once an overflowed queue has emptied: clear OVERFLOW and queue every pending recount (R184). -/
def overflowSweep (p : Pattern) (s : State) : State :=
  match s.trc.overflow with
  | none => s
  | some since =>
    if !s.trc.recounts.isEmpty then s
    else
      let s := { s with trc.overflow := none }
      (List.range p.edges).foldl (fun s e =>
        let (s, r) := readRecord tracerReq e s
        match r with
        | none => s
        | some rec => (List.range 16).foldl (fun s slot => if recPend rec slot then queueRecount e slot since s else s) s) s

/-- The clear phase of a rotation count (R185). -/
def clearSlot (p : Pattern) (slot : Nat) (s : State) : State :=
  let s := { s with trc.recounts := s.trc.recounts.filter (·.slot != slot) }
  (List.range p.edges).foldl (fun s e => modifyRecord e (setSlot · slot 0 false false) s) s

/-- +1 to the reverse list of a set voxel. -/
def scanVoxel (p : Pattern) (slot v : Nat) (s : State) : State :=
  if s.trc.fault then s
  else
    let (s, l) := reverseList p v s
    match l with
    | none => patternFault s
    | some es => es.foldl (fun s e => addEdge e slot true s) s

/-- The scan phase: each word of the slot is read once, and its set voxels are taken in ascending order; in a word with the poison mark every
voxel counts as occupied (assumption log 71). -/
def scanSlot (c : OccCtx) (p : Pattern) (slot : Nat) (s : State) : State :=
  (List.range sliceWords).foldl (fun s i =>
    if s.trc.fault then s
    else
      let (s, w) := layerWord c (c.bitmapAt slot i) s
      ((List.range 256).filter fun u => (w.getD (2 ^ 256 - 1)).testBit u).foldl (fun s u => scanVoxel p slot (256 * i + u) s) s) s

/-- The rotation count at the head of the queue (R185); it waits behind a full count (R186). -/
def rotationCount (c : OccCtx) (p : Pattern) (s : State) : State :=
  if s.trc.fullCount.isSome || s.trc.fault || s.tracerTested then s
  else match s.trc.rotations with
  | [] => s
  | slot :: rest =>
    let s := scanSlot c p slot (clearSlot p slot s)
    if s.trc.fault then s
    else { s with trc.rotations := rest, trc.valid := s.trc.valid ||| (1#16 <<< slot) }

/-- The record that a full count writes: every slot but those rotated meanwhile (R186). -/
def fullRecord (c : OccCtx) (skip : List Nat) (vs : List Nat) (rec : Nat) (s : State) : State × Nat :=
  (List.range 16).foldl (fun (s, rec) slot =>
    if skip.contains slot then (s, rec)
    else
      let (s, n) := countSlot c slot vs s
      (s, countedSlot rec slot n)) (s, rec)

/-- A full count, from edge 0 to the last (R186). -/
def fullCount (c : OccCtx) (p : Pattern) (s : State) : State :=
  if s.trc.fullCount.isNone || s.trc.fault || s.tracerTested then s
  else
    let skip := s.trc.rotations
    let s := (List.range p.edges).foldl (fun s e =>
      if s.trc.fault then s
      else
        let (s, l) := forwardList p e s
        match l with
        | none => patternFault s
        | some vs =>
          let (s, w) := readEdgeWord tracerReq e s
          let w := w.getD (2 ^ 256 - 1)
          let (s, rec) := fullRecord c skip vs (recordOf e w) s
          writeWord (edgeKey e) (word (withRecord e w rec)) s) s
    let s := { s with trc.fullCount := none }
    if s.trc.fault then s
    else { s with trc.valid := (List.range 16).foldl (fun v slot => if skip.contains slot then v else v ||| (1#16 <<< slot)) s.trc.valid }

/-- Run a background count of the Tracer while an occupancy service and a Pattern stand. -/
def tracerWork (f : OccCtx → Pattern → State → State) (s : State) : State :=
  match s.occCtx, s.pat.active with
  | some c, some p => f c p s
  | _, _ => s

/-! ## Overdue counts (R198) -/

/-- The bound of a full count in ns (R194). -/
def fullCountBound (p : Pattern) : Nat := p.fwdTotal * 24 / 1000 + 2000000

/-- The DETAIL_A values of the conditions of R198 that hold. -/
def overdueConditions (s : State) : List Nat :=
  match s.occCtx, s.pat.active with
  | some c, some p =>
    let rot := s.trc.rotations.any fun x => nth s.trc.rotatedAt x 0 + 2000000 * c.period < s.now
    let late (g bound : Nat) : Bool := g + bound < s.now
    let old := s.trc.recounts.any (fun x => late x.since 50000000) ||
      (match s.trc.overflow with | some g => late g 50000000 | none => false)
    let full := match s.trc.fullCount with | some g => late g (fullCountBound p) | none => false
    (if rot then [1] else []) ++ (if old then [2] else []) ++ (if full then [3] else [])
  | _, _ => []

/-- The alarms of the overdue conditions; OVERDUE holds while one of them does. -/
def recountOverdue (s : State) : State :=
  let l := overdueConditions s
  let s := { s with trc.overdue := !l.isEmpty }
  l.foldl (fun s a => raiseAlarm 0x0309 a 0 s) s

/-! ## Reads by epoch (R188) -/

/-- What a read that names an epoch finds. -/
inductive GateRead where
  | served (e : Epoch)
  | held
  | stale
  deriving DecidableEq, Repr

/-- The outcome of a read of edge state that names an epoch (R188). -/
def State.gateRead (s : State) (number : Reg) : GateRead :=
  match s.occ.applied, s.occ.committed with
  | some a, some c =>
    if s.trc.gate == some number && a.number == number then .served a
    else if c.number == number && !s.occ.committedApplied then .held
    else .stale
  | none, some c => if c.number == number && !s.occ.committedApplied then .held else .stale
  | _, none => .stale

/-- The record of an edge for an item; poison ends the item (R196, R399). -/
def getRecord (r : Requester) (e : Nat) : Run Nat := do
  let x ← stateOp (askRecord r e)
  match x with
  | some rec => pure rec
  | none => poisoned

/-! ## EDGE_READ (R192) -/

/-- Edges of an EDGE_READ list of `n` entries, checked whole before any output is written; each word is read once. -/
def edgeList (r : Requester) (p : Option Pattern) (list : Span) (n : Nat) : List Nat → Run (List Nat)
  | [] => pure []
  | i :: t => do
    let w ← getWord r (list.key + i)
    let xs := (List.range (min 8 (n - 8 * i))).map fun l => bits w (32 * l) 32
    ensure (xs.all fun x => match p with | some p => x < 2097152 && x < p.edges | none => false) 0x0105
    let l ← edgeList r p list n t
    pure (xs ++ l)

/-- Read the records of a list of edges. -/
def getRecords (r : Requester) : List Nat → Run (List Nat)
  | [] => pure []
  | e :: t => do
    let x ← getRecord r e
    let l ← getRecords r t
    pure (x :: l)

/-- Pack values of `width` bits into words, `per` to a word; the first argument bounds the number of words. -/
def packWords (width per : Nat) : Nat → List Nat → List Word
  | 0, _ => []
  | n + 1, l =>
    if l.isEmpty then []
    else
      let w := ((List.range per).zip (l.take per)).foldl (fun acc (i, v) => acc + (v % 2 ^ width) <<< (width * i)) 0
      word w :: packWords width per n (l.drop per)

/-- The checks of an EDGE_READ parameter block. -/
def edgeReadCheck (w listWords outWords : Nat) : Check Unit := do
  let count := bits w 64 32
  need (count != 4294967295) 0x0107
  need (count != 0) 0x0108
  need (bits w 33 31 == 0 && bits w 96 160 == 0) 0x0105
  need (count ≤ 65536) 0x0106
  need (ceilDiv count 8 ≤ listWords && ceilDiv count (if w.testBit 32 then 2 else 16) ≤ outWords) 0x0101

/-- The output words of an EDGE_READ: blocked masks, or raw records. -/
def edgeReadWords (s : State) (e : Epoch) (raw : Bool) (recs : List Nat) : List Word :=
  if raw then packWords 128 2 recs.length recs
  else packWords 16 16 recs.length (recs.map (blockedMask s e))

/-- EDGE_READ for an item; none while the read is held for an epoch not yet applied. -/
def edgeRead (it : Item) (j : Job) (param list out : Span) : Run (Option Result) := do
  let r := it.requester
  let w ← getWord r param.key
  checkOp fun _ => edgeReadCheck w list.len out.len
  let s ← get
  let es ← edgeList r s.pat.active list (bits w 64 32) (List.range (ceilDiv (bits w 64 32) 8))
  match s.gateRead (BitVec.ofNat 32 w) with
  | .stale => throw { reason := 0x0306 }
  | .held => pure none
  | .served e =>
    if es.any fun x => s.testedGroups.getLsbD (edgeGroup x) then pure none else
    let recs ← getRecords r es
    let s ← get
    let gs := clean (edgeReadWords s e (w.testBit 32) recs)
    change (writeGots out.key gs)
    pure (some (done .ok 0 0 0 (digestGots j 2 0 gs)))

/-- The output words of an EDGE_READ that met poison: those that its parameter block defines, or all of OPERAND2 where that word itself cannot be
read (R399, assumption log 87). -/
def edgeReadOut (p o : Span) (s : State) : Nat :=
  match s.peek p.key with
  | some w => min o.len (ceilDiv (Word.get w 64 32) (if w.getLsbD 32 then 2 else 16))
  | none => o.len

/-- EDGE_READ on its item; one that met poison poisons its output words (R399). -/
def edgeReadItem (it : Item) (j : Job) (s : State) : State × Option Result :=
  match j.operandSpan it.entry 0, j.operandSpan it.entry 1, j.operandSpan it.entry 2 with
  | some p, some l, some o =>
    match runProg (edgeRead it j p l o) s with
    | (s, .ok r) => (s, r)
    | (s, .error f) =>
      if f.status == .poisoned then poisonOut j it 2 (edgeReadOut p o s) s else (s, some f.result)
  | _, _, _ => (s, some (Fail.result { reason := 0x0105 }))

end Sys2Proof.Machine
end

