-- ==== Sys2Proof/Machine/Trajectory.lean ====
section
/-!
DEFINITION. Trajectories: the record of R273 and R274, the grid of R263, positions in time (R268, R270, R351), the active trajectory
and the start state of a cycle (R204, R205), and clearance of an edge in time (R207).
-/

namespace Sys2Proof.Machine

open Sys2Proof

/-! ## The trajectory record (R273, R274) -/

/-- A window entry (R274). -/
structure Window where
  edge : Nat
  goIn : Nat
  goOut : Nat
  stopIn : Nat
  stopOut : Nat
  ahead : Bool
  deriving DecidableEq, Repr

/-- STOP_IN or STOP_OUT of an edge that the stop branch does not reach, or rests in. -/
def openTime : Nat := 0xFFFFFFFF

/-- The Global Counter to which an open STOP_OUT extends: past every slice of the horizon (R274). -/
def openEnd : Nat := 2 ^ 70

/-- A window entry in a word; `ahead` is PREFIX. -/
def windowOf (w : Nat) : Window :=
  { edge := bits w 0 21, goIn := bits w 32 32, goOut := bits w 64 32, stopIn := bits w 96 32, stopOut := bits w 128 32,
    ahead := w.testBit 160 }

/-- A header field of a record. -/
def recField (r : List Word) (lo len : Nat) : Nat := bits (nth r 0 0).toNat lo len

/-- T_i of a record. -/
def recTime (r : List Word) (i : Nat) : Nat := lane32 (nth r (1 + i / 8) 0) (i % 8)

/-- The window entries used. -/
def recWindows (r : List Word) : List Window := ((r.drop 9).take (recField r 96 7)).map fun w => windowOf w.toNat

/-- The covered edges: the last COVERED window entries. -/
def recCovered (r : List Word) : List Nat :=
  ((recWindows r).drop ((recWindows r).length - recField r 107 7)).map (·.edge)

/-- T_B, and the stop time τ in ns. -/
def recTB (r : List Word) : Nat := recField r 160 32
def recTau (r : List Word) : Nat := 1000 * recField r 192 32

/-! ## The grid (R263) -/

/-- Covered edges, their nominal starts c_0 to c_M, and σ_0 of the first. -/
structure Grid where
  edges : List Nat
  starts : List Nat
  sigma0 : Nat
  deriving DecidableEq, Repr

/-- Running sums from a start. -/
def runningSums (a : Nat) : List Nat → List Nat
  | [] => [a]
  | x :: t => a :: runningSums (a + x) t

/-- Nominal time from σ to the end of an edge of a DURATION (R205). -/
def restOfEdge (duration sigma : Nat) : Nat := ceilDiv (duration * (sigmaMax - sigma)) sigmaMax

/-- The grid of edges with their DURATIONs; a first edge that begins at σ has nominal length τs. -/
def makeGrid (edges durations : List Nat) (sigma0 : Nat) : Grid :=
  let lens := match durations with
    | [] => []
    | d :: t => (if sigma0 == 0 then d else restOfEdge d sigma0) :: t
  { edges := edges, starts := runningSums 0 lens, sigma0 := sigma0 }

/-- D_tot. -/
def Grid.total (g : Grid) : Nat := g.starts.getLastD 0

/-- t_i. -/
def Grid.time (g : Grid) (i : Nat) : Nat := i * g.total / 63

/-- The covered edge at a nominal time measured in 1/`scale` of 10 µs, and σ on it. -/
def Grid.place (g : Grid) (scale t : Nat) : Nat × Nat :=
  let m := min (((g.starts.drop 1).filter fun c => scale * c ≤ t).length) (g.edges.length - 1)
  let c := nth g.starts m 0
  let s0 := if m == 0 then g.sigma0 else 0
  let len := nth g.starts (m + 1) 0 - c
  (nth g.edges m 0, min sigmaMax (s0 + (t - scale * c) * (sigmaMax - s0) / (scale * len)))

/-- Edge and σ at grid point i. -/
def Grid.point (g : Grid) (i : Nat) : Nat × Nat := g.place 1 (g.time i)

/-- DURATION of edges. -/
def getDurations (r : Requester) (p : Pattern) : List Nat → Run (List Nat)
  | [] => pure []
  | e :: t => do
    let x ← getEdge r p e
    let l ← getDurations r p t
    pure (x.duration :: l)

/-- The grid of a plan. -/
def getGrid (r : Requester) (p : Pattern) (pl : Plan) : Run Grid := do
  let es := recCovered pl.record
  let ds ← getDurations r p es
  pure (makeGrid es ds pl.sigma0)

/-! ## Places in time (R268, R270) -/

/-- A place: at a node, or at σ on an edge. -/
inductive Place where
  | node (n : Nat)
  | edge (e sigma : Nat)
  deriving DecidableEq, Repr

/-- The interval i of a record with T_i ≤ t < T_(i+1), for t before T_63. -/
def recInterval (r : List Word) (t : Nat) : Nat := ((List.range 63).filter fun i => recTime r (i + 1) ≤ t).length

/-- ν(T) of R268 in a list of 64 times. -/
def nominalAt (g : Grid) (time : Nat → Nat) (i t : Nat) : Nat :=
  65536 * g.time i + (t - time i) * 65536 * (g.time (i + 1) - g.time i) / (time (i + 1) - time i)

/-- Edge and σ at go-time t, at or after T_0. -/
def goPlace (g : Grid) (r : List Word) (t : Nat) : Nat × Nat :=
  if recTime r 63 ≤ t then (g.edges.getLastD 0, sigmaMax)
  else g.place 65536 (nominalAt g (recTime r) (recInterval r t) t)

/-- The go-time of the stop branch at t (R270), rounded to the nearest ns, ties upward (R351). -/
def warpTime (tB tau t : Nat) : Nat :=
  if t ≤ tB || tau == 0 then t
  else
    let x := t - tB
    if tau ≤ x then tB + tau / 2
    else
      let num := 2 * tau ^ 3 * x + x ^ 4 - 2 * tau * x ^ 3
      let den := 2 * tau ^ 3
      tB + (2 * num + den) / (2 * den)

/-- The place of a channel at Global Counter g, by the motion in force at `bound`; before T_START a plan follows the motion in
force at its g_base (R268). -/
def placeAt (r : Requester) (p : Pattern) : List Segment → Nat → Nat → Run Place
  | [], _, _ => pure (.node 0)
  | x :: older, g, bound =>
    if bound < x.start then placeAt r p older g bound
    else
      let follow (pl : Plan) (t : Nat) : Run Place :=
        if t < recTime pl.record 0 then placeAt r p older (pl.gBase + t) (pl.gBase - 1)
        else do
          let gr ← getGrid r p pl
          let (e, sg) := goPlace gr pl.record t
          pure (.edge e sg)
      match x.motion with
      | .restNode n => pure (.node n)
      | .restEdge e sg => pure (.edge e sg)
      | .go pl => follow pl (g - pl.gBase)
      | .stop pl => follow pl (warpTime (recTB pl.record) (recTau pl.record) (g - pl.gBase))

/-- Joint positions at a place. -/
def getPlace (r : Requester) (p : Pattern) (joints : List Joint) : Place → Run (List Int)
  | .node n => do
    let a ← getNode r p n
    pure (a.q.take joints.length)
  | .edge e sg => do
    let g ← getGeo r p joints e
    pure (g.at sg)

/-- The node at a place, where it is one. -/
def placeNode (r : Requester) (p : Pattern) : Place → Run (Option Nat)
  | .node n => pure (some n)
  | .edge e sg => do
    let x ← getEdge r p e
    pure (if sigmaMax ≤ sg then some x.dst else if sg == 0 then some x.src else none)

/-! ## The active trajectory (R204) -/

/-- The motion in force at g. -/
def motionAt : List Segment → Nat → Motion
  | [], _ => .restNode 0
  | x :: older, g => if g < x.start then motionAt older g else x.motion

/-- Global Counter at which a stop branch comes to rest. -/
def Plan.stopEnd (pl : Plan) : Nat := pl.gBase + recTB pl.record + recTau pl.record

/-- Global Counter at which a go trajectory comes to rest. -/
def Plan.goEnd (pl : Plan) : Nat := pl.gBase + recTime pl.record 63

/-- The three kinds of R204. -/
inductive Kind where
  | rest | go | stop
  deriving DecidableEq, Repr

/-- The kind of the active trajectory at g: a STOP that has ended is REST. -/
def kindAt (h : List Segment) (g : Nat) : Kind :=
  match motionAt h g with
  | .restNode _ | .restEdge _ _ => .rest
  | .go _ => .go
  | .stop pl => if pl.stopEnd ≤ g then .rest else .stop

/-- The plan of the active trajectory at g. -/
def planAt (h : List Segment) (g : Nat) : Option Plan :=
  match motionAt h g with
  | .go pl | .stop pl => some pl
  | .restNode _ | .restEdge _ _ => none

/-- A motion becomes active at g; motions that would have begun at g or later are superseded. -/
def beginMotion (g : Nat) (m : Motion) (h : List Segment) : List Segment := ⟨g, m⟩ :: h.filter (·.start < g)

/-! ## The start state (R205) -/

/-- The start state: node, τs, the prefix edge with its window in CH_STATE, σ and Global Counter of a rest within an edge, the first edge
of the active path after the start node, as an index of its windows, and whether the trajectory is moving there (the first row of R205). -/
structure StartState where
  node : Nat
  tau : Nat
  ahead : Option (Nat × Nat × Nat)
  rest : Option (Nat × Nat)
  next : Nat
  moving : Bool := false
  deriving DecidableEq, Repr

/-- τ of an arrival at Global Counter g. -/
def tauOf (gBase g : Nat) : Nat := ceilDiv (g - gBase) 10000

/-- Entry and exit of a window on the trajectory followed, in Global Counter; none where it is open. -/
def windowTimes (pl : Plan) (stop : Bool) (w : Window) : Option (Nat × Nat) :=
  if stop then
    if w.stopIn == openTime || w.stopOut == openTime then none else some (pl.gBase + w.stopIn, pl.gBase + w.stopOut)
  else some (pl.gBase + w.goIn, pl.gBase + w.goOut)

/-- The first window whose edge is exited at or after g: its index, edge, entry and exit. -/
def windowInProgress (pl : Plan) (stop : Bool) (g : Nat) : List Window → Nat → Option (Nat × Nat × Nat × Nat)
  | [], _ => none
  | w :: t, i => match windowTimes pl stop w with
    | some (a, b) => if g ≤ b then some (i, w.edge, a, b) else windowInProgress pl stop g t (i + 1)
    | none => windowInProgress pl stop g t (i + 1)

/-- Rows 2 to 4 of R205: the trajectory rests at Global Counter gRest, which is not before g_base.  The window of an edge in which a stop
branch rests is open (R210, R274). -/
def restStart (r : Requester) (p : Pattern) (h : List Segment) (gBase gRest next : Nat) : Run StartState := do
  let pl ← placeAt r p h gRest gBase
  let n ← placeNode r p pl
  match n, pl with
  | some n, _ => pure { node := n, tau := 0, ahead := none, rest := none, next := next }
  | none, .edge e sg =>
    let x ← getEdge r p e
    let tau := tauOf gBase gRest + restOfEdge x.duration sg
    pure { node := x.dst, tau := tau, ahead := some (e, gBase, openEnd), rest := some (sg, gRest), next := next }
  | none, .node n => pure { node := n, tau := 0, ahead := none, rest := none, next := next }

/-- The start state of a cycle with g_base. -/
def startState (r : Requester) (p : Pattern) (h : List Segment) (gBase : Nat) : Run StartState :=
  let follow (pl : Plan) (stop : Bool) : Run StartState :=
    let ws := recWindows pl.record
    match windowInProgress pl stop gBase ws 0 with
    | some (i, e, a, b) => do
      let x ← getEdge r p e
      let before := if b == gBase then none else some (e, max gBase a, b)
      pure { node := x.dst, tau := tauOf gBase b, ahead := before, rest := none, next := i + 1, moving := true }
    | none => restStart r p h gBase (max gBase (if stop then pl.stopEnd else pl.goEnd)) ws.length
  match motionAt h gBase with
  | .restNode _ | .restEdge _ _ => restStart r p h gBase gBase 0
  | .go pl => follow pl false
  | .stop pl => if pl.stopEnd ≤ gBase then restStart r p h gBase gBase 0 else follow pl true

/-! ## The interval of the active trajectory at a time (R265, R269) -/

/-- Velocities in quanta per ns, length in ns, and A at its start, of an interval of a trajectory. -/
structure Interval where
  v : List Rat
  h : Nat
  a : List Rat
  deriving DecidableEq, Repr

/-- Velocities between two positions. -/
def velocities (q0 q1 : List Int) (h : Nat) : List Rat := (q0.zip q1).map fun (a, b) => mkRat (b - a) h

/-- A_k at the start of an interval, from the interval before it (R269). -/
def accelerations (v0 v1 : List Rat) (h0 h1 : Nat) : List Rat :=
  (v0.zip v1).map fun (a, b) => (b - a) / mkRat (h0 + h1) 2

/-- The interval i of samples at times, with the interval before the first given; REST before it is velocity 0 and the first length. -/
def sampleInterval (time : Nat → Nat) (q : Nat → List Int) (before : Option Interval) (i : Nat) : Interval :=
  let len (j : Nat) : Nat := time (j + 1) - time j
  let vel (j : Nat) : List Rat := velocities (q j) (q (j + 1)) (len j)
  let v := vel i
  let (v0, h0) := if i == 0 then
      (match before with | some b => (b.v, b.h) | none => (v.map fun _ => 0, len 0))
    else (vel (i - 1), len (i - 1))
  { v := v, h := len i, a := accelerations v0 v h0 (len i) }

/-- The interval j of 64 times with time j < t ≤ time (j + 1). -/
def containing (time : Nat → Nat) (t : Nat) : Nat := min 62 (((List.range 63).filter fun j => time (j + 1) < t).length)

/-- Positions at a list of places. -/
def getPlaces (r : Requester) (p : Pattern) (joints : List Joint) : List Place → Run (List (List Int))
  | [] => pure []
  | x :: t => do
    let a ← getPlace r p joints x
    let l ← getPlaces r p joints t
    pure (a :: l)

/-- The times round(τ j / 63) from T_B of the stop-branch samples (R270). -/
def stopSample (tB tau j : Nat) : Nat := tB + (2 * tau * j + 63) / 126

/-- The interval of the go trajectory of a plan that contains go-time t; `before` gives intervals of the trajectory before it. -/
def goInterval (r : Requester) (p : Pattern) (joints : List Joint) (pl : Plan) (t : Nat)
    (before : Nat → Nat → Run (Option Interval)) : Run (Option Interval) := do
  let time := recTime pl.record
  if t ≤ time 0 then before (pl.gBase + t) (pl.gBase - 1)
  else if time 63 < t then pure none
  else do
    let gr ← getGrid r p pl
    let i := containing time t
    let prior ← if i == 0 then before (pl.gBase + time 0) (pl.gBase - 1) else pure none
    let qs ← getPlaces r p joints ((List.range 3).map fun j => let x := gr.point (i + j - 1); Place.edge x.1 x.2)
    pure (some (sampleInterval time (fun j => nth qs (j + 1 - i) []) prior i))

/-- The interval that contains Global Counter g of the trajectory in force at `bound`; none where it is at rest. -/
def intervalAt (r : Requester) (p : Pattern) (joints : List Joint) : List Segment → Nat → Nat → Run (Option Interval)
  | [], _, _ => pure none
  | x :: older, g, bound =>
    if bound < x.start then intervalAt r p joints older g bound
    else match x.motion with
      | .restNode _ | .restEdge _ _ => pure none
      | .go pl => goInterval r p joints pl (g - pl.gBase) (intervalAt r p joints older)
      | .stop pl =>
        let tB := recTB pl.record
        let tau := recTau pl.record
        let t := g - pl.gBase
        if t ≤ tB || tau == 0 then goInterval r p joints pl t (intervalAt r p joints older)
        else if tB + tau < t then pure none
        else do
          let time := stopSample tB tau
          let i := containing time t
          let prior ← if i == 0 then goInterval r p joints pl (tB + 1) (intervalAt r p joints older) else pure none
          let sample (j : Nat) : Run (List Int) := do
            let a ← placeAt r p (x :: older) (pl.gBase + time j) bound
            getPlace r p joints a
          let q0 ← if i == 0 then pure [] else sample (i - 1)
          let q1 ← sample i
          let q2 ← sample (i + 1)
          pure (some (sampleInterval time (fun j => if j + 1 == i then q0 else if j == i then q1 else q2) prior i))

/-! ## Clearance of an edge in time (R207) -/

/-- k(g) of R207. -/
def relSlice (c : OccCtx) (e : Epoch) (g : Nat) : Nat := min 15 (c.slice g - e.t0)

/-- Is a record clear in the slices between two times? -/
def recordClear (s : State) (c : OccCtx) (e : Epoch) (rec_ gIn gOut : Nat) : Bool :=
  let k0 := relSlice c e gIn
  (List.range (relSlice c e gOut + 1 - k0)).all fun i => !blockedIn s e rec_ (k0 + i)

/-- Is an edge clear from g_in to g_out at an epoch?  A read that names an epoch whose gate has closed is refused (R188). -/
def edgeClear (r : Requester) (c : OccCtx) (e : Epoch) (edge gIn gOut : Nat) : Run Bool := do
  let open_ ← get
  ensure (open_.trc.gate == some e.number) 0x0306
  let rec_ ← getRecord r edge
  let s ← get
  pure (recordClear s c e rec_ gIn gOut)

/-- Are all windows clear?  Edges are read in order up to the first blocked one. -/
def windowsClear (r : Requester) (c : OccCtx) (e : Epoch) : List (Nat × Nat × Nat) → Run Bool
  | [] => pure true
  | (edge, a, b) :: t => do
    let ok ← edgeClear r c e edge a b
    if ok then windowsClear r c e t else pure false

/-! ## Channels of the active job -/

/-- Words of CH_STATE (R201). -/
def chStateWords : Nat := 256

/-- An item reads the CH_STATE of its channel, whole; a word that carries poison ends it (R399).  What the words hold is private to the device
(R204); what they say stands in `Channel.history`. -/
def getChState (r : Requester) (j : Job) (b : Block) : Run Unit :=
  match j.bufferSpan (b.field 18) with
  | some sp => do discard (getAll r sp.key (min chStateWords sp.len))
  | none => pure ()

/-- The control cycle of a tag. -/
def State.cycle? (s : State) (tag : Reg) : Option Cycle := s.shu.cycles.find? (·.tag == tag)

/-- A channel. -/
def State.chan (s : State) (n : Nat) : Channel := nth s.chans n {}

/-- Change a channel. -/
def setChan (n : Nat) (f : Channel → Channel) (s : State) : State := { s with chans := upd s.chans n f }

/-- g_base of a cycle for a channel block (R203); `tag` names the cycle. -/
def State.gBaseOf (s : State) (b : Block) (tag : Reg) : Nat :=
  (match s.cycle? tag with | some c => c.gFire | none => 0) + 1000 * b.field 11

/-- The line position at which the plans of a cycle start: KEY + PERIOD of the cycle entry (R203). -/
def State.planStart (s : State) (j : Job) (tag : Reg) : LinePos :=
  let period := ((j.blockOf 0x10).map (·.field 1)).getD 0
  (match s.cycle? tag with | some c => c.key | none => 0) + BitVec.ofNat 48 period

end Sys2Proof.Machine
end

