-- ==== Sys2Proof/Machine/Search.lean ====
section
/-!
DEFINITION. Path search and Darning (file 08): costs and heuristic (R209), the label procedure (R210), SEARCH (R208, R211), the candidate
list (R212) and DARN (R214 to R217).
-/

namespace Sys2Proof.Machine

open Sys2Proof

/-! ## Labels (R210) -/

/-- A label.  `rejoin` marks a completion label of Darning: the index of the active path's edge that it continues with (R216). -/
structure Label where
  num : Nat
  node : Nat
  g : Nat
  tau : Nat
  depth : Nat
  parent : Option Nat
  edge : Nat
  h : Nat
  rejoin : Option Nat
  deriving DecidableEq, Repr

/-- Order of the open labels: f, then h, then label number. -/
def Label.before (a b : Label) : Bool :=
  if a.g + a.h != b.g + b.h then a.g + a.h < b.g + b.h
  else if a.h != b.h then a.h < b.h
  else a.num < b.num

/-- c(e) of R209. -/
def edgeCost (weight : Nat) (x : Edge) : Nat := x.cost + (weight * x.duration) >>> 8

/-- What a search runs under. -/
structure SearchRules where
  chan : Block
  epoch : Epoch
  occ : OccCtx
  gBase : Nat
  joints : Nat
  goal : Nat
  goalQ : List Int
  /-- HEUR_SCALE, or 0 in Darning -/
  scale : Nat
  /-- K, MAX_EXPANSIONS and the greatest depth, or Darning's limits (R216) -/
  emit : Nat
  expand : Nat
  depth : Nat
  deriving DecidableEq, Repr

/-- h(n) of R209. -/
def heuristic (u : SearchRules) (q : List Int) : Nat :=
  (u.scale * (((q.take u.joints).zip (u.goalQ.take u.joints)).map fun (a, b) => (a - b).natAbs).foldl (· + ·) 0) >>> 16

/-- The search in progress. -/
structure SearchRun where
  labels : List Label
  opened : List Label
  settled : List (Nat × Nat)
  emitted : List Label
  expansions : Nat
  budget : Bool
  full : Bool
  deriving DecidableEq, Repr

/-- Settle count of a node. -/
def SearchRun.settle (s : SearchRun) (n : Nat) : Nat := ((s.settled.find? (·.1 == n)).map (·.2)).getD 0

/-- Create a label; with 65,536 labels LABELS_FULL is set instead. -/
def SearchRun.create (s : SearchRun) (l : Label) : SearchRun :=
  if s.labels.length ≥ 65536 then { s with full := true }
  else
    let l := { l with num := s.labels.length }
    { s with labels := s.labels ++ [l], opened := insertBy Label.before l s.opened }

/-- Global Counter of a search time. -/
def SearchRules.at (u : SearchRules) (tau : Nat) : Nat := u.gBase + 10000 * tau

/-- Is an edge clear for a traversal that starts at search time τ? -/
def tauClear (r : Requester) (u : SearchRules) (e tau duration : Nat) : Run Bool :=
  edgeClear r u.occ u.epoch e (u.at tau) (u.at (tau + duration))

/-- The label that edge e gives from label l. -/
def childLabel (r : Requester) (p : Pattern) (u : SearchRules) (l : Label) (e : Nat) (x : Edge) : Run Label := do
  let h ← if u.scale == 0 || x.dst == u.goal then pure 0 else do
    let n ← getNode r p x.dst
    pure (heuristic u n.q)
  pure { num := 0, node := x.dst, g := l.g + edgeCost (u.chan.field 9) x, tau := l.tau + x.duration, depth := l.depth + 1,
         parent := some l.num, edge := e, h := h, rejoin := none }

/-- Expand a label over out-edges in ascending index; `extra` adds what Darning creates with each label, `skip` bars an edge. -/
def expandEdges (r : Requester) (p : Pattern) (u : SearchRules) (l : Label) (skip : Nat → Bool)
    (extra : Label → SearchRun → Run SearchRun) : List Nat → SearchRun → Run SearchRun
  | [], s => pure s
  | e :: es, s => do
    let x ← getEdge r p e
    let go ← if skip e || !(u.chan.field 6).testBit x.cls then pure false else tauClear r u e l.tau x.duration
    if !go then expandEdges r p u l skip extra es s
    else do
      let c ← childLabel r p u l e x
      let n := s.labels.length
      let s := s.create c
      let s ← if n < s.labels.length then extra { c with num := n } s else pure s
      expandEdges r p u l skip extra es s

/-- The loop of R210; the first argument bounds the pops. -/
def searchLoop (r : Requester) (p : Pattern) (u : SearchRules) (skip : Label → Nat → Bool)
    (extra : Label → SearchRun → Run SearchRun) : Nat → SearchRun → Run SearchRun
  | 0, s => pure s
  | fuel + 1, s => match s.opened with
    | [] => pure s
    | l :: rest =>
      let s : SearchRun := { s with opened := rest }
      if l.rejoin.isSome then
        let s : SearchRun := { s with emitted := s.emitted ++ [l] }
        if s.emitted.length == u.emit then pure s else searchLoop r p u skip extra fuel s
      else if s.settle l.node == u.emit then searchLoop r p u skip extra fuel s
      else
        let s : SearchRun := { s with settled := (l.node, s.settle l.node + 1) :: s.settled.filter (·.1 != l.node) }
        if l.node == u.goal then
          let s : SearchRun := { s with emitted := s.emitted ++ [l] }
          if s.emitted.length == u.emit then pure s else searchLoop r p u skip extra fuel s
        else if l.depth == u.depth then searchLoop r p u skip extra fuel s
        else do
          let (a, b) ← getOut r p l.node
          let s ← expandEdges r p u l (skip l) extra ((List.range (b - a)).map (a + ·)) s
          let s : SearchRun := { s with expansions := s.expansions + 1 }
          if s.expansions == u.expand then pure { s with budget := true } else searchLoop r p u skip extra fuel s

/-- An empty search. -/
def SearchRun.empty : SearchRun :=
  { labels := [], opened := [], settled := [], emitted := [], expansions := 0, budget := false, full := false }

/-- The searched edges of a label, from its first to its last; the number bounds the depth. -/
def SearchRun.edges (s : SearchRun) : Nat → Label → List Nat
  | 0, _ => []
  | n + 1, l => match l.parent with
    | none => []
    | some k => match s.labels[k]? with
      | some q => s.edges n q ++ (if l.rejoin.isSome then [] else [l.edge])
      | none => []

/-- The seed of a label. -/
def SearchRun.seed (s : SearchRun) : Nat → Label → Label
  | 0, l => l
  | n + 1, l => match l.parent with
    | none => l
    | some k => match s.labels[k]? with
      | some q => s.seed n q
      | none => l

/-! ## The candidate list (R212) -/

/-- Words of a list of K candidates. -/
def listWords (k : Nat) : Nat := 1 + 10 * k

/-- COUNT of a list's header word arrives in data: it is checked against the list's buffer (R80, R83; assumption log 73). -/
def keptCount (w len : Nat) : Check Unit := do
  need (bits w 32 5 != 31) 0x0107
  need (bits w 32 5 ≤ 16) 0x0106
  need (listWords (bits w 32 5) ≤ len) 0x0101

/-- EDGE_COUNT of a candidate record's header word (R80, R83). -/
def edgeCount (w : Nat) : Check Unit := do
  need (bits w 32 7 != 127) 0x0107
  need (bits w 32 7 ≤ 72) 0x0106

/-- The list header. -/
structure ListHeader where
  epoch : Nat
  count : Nat
  result : Nat
  channel : Nat
  budget : Bool
  full : Bool
  goalChanged : Bool
  darn : Nat
  cause : Nat
  expansions : Nat
  tag : Nat
  node : Nat
  time : Nat
  deriving DecidableEq, Repr

/-- The header word. -/
def ListHeader.word (h : ListHeader) : Word :=
  Machine.word (at_ h.epoch 0 32 ||| at_ h.count 32 5 ||| at_ h.result 37 3 ||| at_ h.channel 40 4 ||| at_ (b2n h.budget) 44 1 |||
    at_ (b2n h.full) 45 1 ||| at_ (b2n h.goalChanged) 46 1 ||| at_ h.darn 48 3 ||| at_ h.cause 51 3 ||| at_ h.expansions 64 32 |||
    at_ h.tag 96 32 ||| at_ h.node 128 32 ||| at_ h.time 160 32)

/-- A candidate. -/
structure Candidate where
  rank : Nat
  channel : Nat
  board : Nat
  edges : List Nat
  aheadLen : Nat
  darned : Bool
  detourFirst : Nat
  detourLen : Nat
  cost : Nat
  arrival : Nat
  label : Nat
  goal : Nat
  epoch : Nat
  deriving DecidableEq, Repr

/-- The 10 words of a candidate record. -/
def Candidate.words (c : Candidate) : List Word :=
  let id := c.rank + at_ c.channel 24 4 + at_ c.board 28 3
  let edges := packWords 32 8 9 (c.edges.map (· % 2097152))
  Machine.word (at_ id 0 32 ||| at_ c.edges.length 32 7 ||| at_ c.aheadLen 39 4 ||| at_ (b2n c.darned) 43 1 ||| at_ c.detourFirst 44 7 |||
    at_ c.detourLen 51 4 ||| at_ c.cost 64 32 ||| at_ c.arrival 96 32 ||| at_ c.label 128 32 ||| at_ c.goal 160 32 |||
    at_ c.epoch 192 32) :: edges ++ List.replicate (9 - edges.length) 0

/-- The words of a list of K candidates; records at positions not below COUNT are zero. -/
def candidateList (k : Nat) (h : ListHeader) (cs : List Candidate) : List Word :=
  let body := cs.flatMap Candidate.words
  h.word :: body ++ List.replicate (10 * k - body.length) 0

/-! ## What SEARCH and DARN begin with (R208, R211, R214) -/

/-- What a SEARCH or DARN item works on: its channel block, channel, epoch, start state and g_base. -/
structure SearchItem where
  req : Requester
  chan : Block
  k : Nat
  pat : Pattern
  occ : OccCtx
  epoch : Epoch
  gBase : Nat
  goalChanged : Bool
  start : StartState
  joints : List Joint
  deriving DecidableEq, Repr

/-- The channel block of an item's service. -/
def Job.itemChannel (j : Job) (it : Item) : Option Block :=
  match j.service it.service with
  | some b => if b.serviceType == 0x11 then some b else none
  | none => none

/-- The goal of a channel took effect in the cycle of a tag. -/
def State.goalChanged (s : State) (ch : Nat) (tag : Reg) : Bool := (s.chan ch).goalTag == some tag

/-- The partition of a channel. -/
def channelJoints (r : Requester) (p : Pattern) (b : Block) : Run (List Joint) := do
  let x ← getPartition r p (b.field 1)
  pure x.joints

/-- Set up an item under an open gate. -/
def searchSetup (it : Item) (j : Job) (b : Block) (p : Pattern) (c : OccCtx) (e : Epoch) : Run SearchItem := do
  let r := it.requester
  getChState r j b
  let s ← get
  let ch := b.field 0
  let g := s.gBaseOf b it.tag
  let st ← startState r p (s.chan ch).history g
  let js ← channelJoints r p b
  pure { req := r, chan := b, k := b.field 7, pat := p, occ := c, epoch := e, gBase := g, goalChanged := s.goalChanged ch it.tag,
         start := st, joints := js }

/-- The prefix is clear at the epoch, from g_base on. -/
def aheadClear (x : SearchItem) : Run Bool :=
  match x.start.ahead with
  | some (e, a, b) => edgeClear x.req x.occ x.epoch e (max x.gBase a) b
  | none => pure true

/-- Prefix edges. -/
def StartState.edges (s : StartState) : List Nat := match s.ahead with | some (e, _, _) => [e] | none => []

/-- The search rules of a SEARCH. -/
def searchRules (x : SearchItem) (goal : Nat) : Run SearchRules := do
  let n ← getNode x.req x.pat goal
  pure { chan := x.chan, epoch := x.epoch, occ := x.occ, gBase := x.gBase, joints := x.joints.length, goal := goal, goalQ := n.q,
         scale := x.chan.field 10, emit := x.k, expand := x.chan.field 8, depth := 64 }

/-! ## SEARCH (R208 to R211) -/

/-- The candidates of a search, ranked in order of emission. -/
def searchCandidates (x : SearchItem) (goal board : Nat) (s : SearchRun) : List Candidate :=
  ((List.range s.emitted.length).zip s.emitted).map fun (i, l) =>
    { rank := i, channel := x.chan.field 0, board := board, edges := x.start.edges ++ s.edges 65 l, aheadLen := x.start.edges.length,
      darned := false, detourFirst := 0, detourLen := 0, cost := l.g, arrival := l.tau, label := l.num, goal := goal,
      epoch := x.epoch.number.toNat }

/-- How a SEARCH ended: SEARCH_RESULT, its run, status and reason. -/
structure SearchEnd where
  result : Nat
  run : SearchRun
  status : Status
  reason : Nat
  deriving DecidableEq, Repr

/-- The rows of R211 below SKIPPED. -/
def searchEnd (x : SearchItem) (ch : Channel) : Run SearchEnd := do
  let atRest := kindAt ch.history x.gBase == .rest && x.start.ahead.isNone && x.start.node == ch.goal && !x.goalChanged
  if atRest then pure ⟨5, .empty, .ok, 0⟩
  else do
    let ok ← aheadClear x
    if !ok then pure ⟨3, .empty, .noFreshPath, 0x0402⟩
    else do
      let u ← searchRules x ch.goal
      let h0 ← if x.start.node == ch.goal then pure 0 else do
        let n ← getNode x.req x.pat x.start.node
        pure (heuristic u n.q)
      let l0 : Label := ⟨0, x.start.node, 0, x.start.tau, 0, none, 0, h0, none⟩
      let s ← searchLoop x.req x.pat u (fun _ _ => false) (fun _ s => pure s) 65537 (SearchRun.empty.create l0)
      if s.emitted.isEmpty then pure ⟨2, s, .noFreshPath, 0x0401⟩ else pure ⟨1, s, .ok, 0⟩

/-- Counters of a SEARCH that has ended. -/
def countSearch (e : SearchEnd) (s : State) : State :=
  let c := s.pse
  { s with pse := { c with
      expansions := satAdd (2 ^ 64 - 1) c.expansions e.run.expansions
      noPath := satAdd 65535 c.noPath (b2n (e.result == 2))
      prefixBlocked := satAdd 65535 c.prefixBlocked (b2n (e.result == 3))
      budget := satAdd 65535 c.budget (b2n e.run.budget)
      labelsFull := satAdd 65535 c.labelsFull (b2n e.run.full) } }

/-- The reason that a failed SEARCH or STITCH leaves for the hold of the cycle (R221). -/
def noteReason (ch : Nat) (tag : Reg) (reason : Nat) (s : State) : State :=
  setChan ch (fun c => { c with holdReason := some (tag, BitVec.ofNat 16 reason) }) s

/-- SEARCH under an open gate: the whole list is written, but for SKIPPED, which changes SEARCH_RESULT alone. -/
def searchRun (it : Item) (j : Job) (b : Block) (p : Pattern) (c : OccCtx) (e : Epoch) (list : Span) : Run Result := do
  let ch := b.field 0
  let w ← getWord it.requester list.key
  let same := bits w 96 32 == it.tag.toNat && b.field 4 == 1
  let darn := if same then bits w 48 3 else 0
  let cause := if same then bits w 51 3 else 0
  if darn == 2 then do
    let gs := clean [word (setBits w 37 3 4)]
    change (writeGots list.key gs)
    pure (done .ok 0 0 0 (digestGots j 0 0 gs))
  else do
    let x ← searchSetup it j b p c e
    let s ← get
    let en ← searchEnd x (s.chan ch)
    let cs := searchCandidates x (s.chan ch).goal s.boardPos en.run
    let h : ListHeader :=
      { epoch := e.number.toNat, count := cs.length, result := en.result, channel := ch, budget := en.run.budget, full := en.run.full,
        goalChanged := x.goalChanged, darn := darn, cause := cause, expansions := en.run.expansions, tag := it.tag.toNat,
        node := x.start.node, time := x.start.tau }
    let gs := clean (candidateList x.k h cs)
    change fun s => countSearch en (writeGots list.key gs s)
    change (setChan ch fun c => { c with scratchUses := c.scratchUses + 1 })
    if en.reason != 0 then change (noteReason ch it.tag en.reason)
    pure (done en.status en.reason 0 0 (digestGots j 0 0 gs))

/-- Run a SEARCH or DARN program: it names the epoch whose gate was open at its start, or, where none was, the first whose gate opens
(R208); it waits while no gate is open (R188), and where it reads a bank under test (R371); on poison the list is poisoned. -/
def gatedItem (it : Item) (j : Job) (m : Block → Pattern → OccCtx → Epoch → Span → Run Result) (s : State) :
    State × Option Result :=
  match j.itemChannel it, s.pat.active, s.occCtx, j.operandSpan it.entry 0 with
  | some b, some p, some c, some list =>
    (match it.epoch.or s.openGate with
     | none => (s, none)
     | some e =>
       untested none (fun s => match runProg (m b p c e list) s with
         | (s, .ok r) => (s, some r)
         | (s, .error f) =>
           if f.status == .poisoned then poisonOut j it 0 (min (listWords (b.field 7)) list.len) s else (s, some f.result)) s)
  | _, _, _, _ => (s, some (Fail.result { reason := 0x0306 }))

/-- A SEARCH item completes (PSE_SEARCHES). -/
def countSearchItem (s : State) : State := { s with pse.searches := satAdd 4294967295 s.pse.searches 1 }

/-- What the scratch of OPERAND1 holds after an item is undefined to readers (R208); a refused item leaves it as it was (R188). -/
def spoilScratch (it : Item) (j : Job) (r : Result) (s : State) : State :=
  match r.status == .refused, j.operandSpan it.entry 1 with
  | false, some sp => forgetWords sp.key sp.len s
  | _, _ => s

/-- SEARCH. -/
def searchItem (it : Item) (j : Job) (s : State) : State × Option Result :=
  match gatedItem it j (searchRun it j) s with
  | (s, some r) => (countSearchItem (spoilScratch it j r s), some r)
  | (s, none) => (s, none)

/-! ## DARN (R214 to R217) -/

/-- The active path after the start node: its windows, with costs and durations. -/
structure ActivePath where
  windows : List Window
  edges : List Edge
  gBase : Nat
  deriving DecidableEq, Repr

/-- Records of edges. -/
def getEdges (r : Requester) (p : Pattern) : List Nat → Run (List Edge)
  | [] => pure []
  | e :: t => do
    let x ← getEdge r p e
    let l ← getEdges r p t
    pure (x :: l)

/-- The active path of a GO trajectory. -/
def activePath (x : SearchItem) (pl : Plan) : Run ActivePath := do
  let ws := (recWindows pl.record).drop x.start.next
  let es ← getEdges x.req x.pat (ws.map (·.edge))
  pure { windows := ws, edges := es, gBase := pl.gBase }

/-- The first edge of the active path that is blocked at its window in CH_STATE. -/
def firstBlocked (x : SearchItem) (g : Nat) : List Window → Nat → Run (Option Nat)
  | [], _ => pure none
  | w :: t, i => do
    let ok ← edgeClear x.req x.occ x.epoch w.edge (g + w.goIn) (g + w.goOut)
    if ok then firstBlocked x g t (i + 1) else pure (some i)

/-- Cost of the first i edges of the active path, and the arrival time at the node before edge i. -/
def ActivePath.cost (a : ActivePath) (weight i : Nat) : Nat := ((a.edges.take i).map (edgeCost weight)).foldl (· + ·) 0

def ActivePath.arrival (a : ActivePath) (x : SearchItem) (i : Nat) : Nat :=
  if i == 0 then x.start.tau
  else tauOf x.gBase (a.gBase + ((a.windows[i - 1]?).map (·.goOut)).getD 0)

/-- The node before edge i of the active path; the last node where i is their number. -/
def ActivePath.node (a : ActivePath) (x : SearchItem) (i : Nat) : Nat :=
  match i with
  | 0 => x.start.node
  | n + 1 => ((a.edges[n]?).map (·.dst)).getD 0

/-- Are the edges from index i on clear when they start at τ and take their nominal durations? -/
def shiftedClear (x : SearchItem) (u : SearchRules) : List (Nat × Edge) → Nat → Run Bool
  | [], _ => pure true
  | (e, d) :: t, tau => do
    let ok ← tauClear x.req u e tau d.duration
    if ok then shiftedClear x u t (tau + d.duration) else pure false

/-- Index of the departure node of a label on the active path: its seed's place in `depart`. -/
def departOf (depart : List Nat) (s : SearchRun) (l : Label) : Nat := nth depart (s.seed 10 l).num 0

/-- The completion labels of a label at rejoin nodes (R216); `rejoins` are indices on the active path. -/
def completions (x : SearchItem) (u : SearchRules) (a : ActivePath) (depart : List Nat) (l : Label) :
    List Nat → SearchRun → Run SearchRun
  | [], s => pure s
  | i :: t, s => do
    let tail := (a.windows.map (·.edge)).zip a.edges |>.drop i
    let total := x.start.edges.length + departOf depart s l + l.depth + tail.length
    let ok ← if a.node x i == l.node && total ≤ 72 then shiftedClear x u tail l.tau else pure false
    let s : SearchRun := if ok then
        let g := l.g + (tail.map fun y => edgeCost (x.chan.field 9) y.2).foldl (· + ·) 0
        let tau := l.tau + (tail.map fun y => y.2.duration).foldl (· + ·) 0
        s.create { l with g := g, tau := tau, parent := some l.num, h := 0, rejoin := some i }
      else s
    completions x u a depart l t s

/-- The seeds, in path order. -/
def seedLabels (x : SearchItem) (a : ActivePath) : List Nat → SearchRun → SearchRun
  | [], s => s
  | i :: t, s =>
    seedLabels x a t (s.create ⟨0, a.node x i, a.cost (x.chan.field 9) i, a.arrival x i, 0, none, 0, 0, none⟩)

/-- The candidates of a repair.  The list keeps the first K of them (assumption log 72). -/
def darnCandidates (x : SearchItem) (a : ActivePath) (depart : List Nat) (goal board : Nat) (s : SearchRun) : List Candidate :=
  ((List.range s.emitted.length).zip s.emitted).map fun (i, l) =>
    let d := departOf depart s l
    let detour := s.edges 10 l
    let tail := match l.rejoin with | some k => (a.windows.drop k).map (·.edge) | none => []
    let head := x.start.edges
    { rank := i, channel := x.chan.field 0, board := board,
      edges := head ++ (a.windows.take d).map (·.edge) ++ detour ++ tail, aheadLen := head.length, darned := true,
      detourFirst := head.length + d, detourLen := detour.length, cost := l.g, arrival := l.tau, label := l.num, goal := goal,
      epoch := x.epoch.number.toNat }

/-- The repair search around blocked edge number b of the active path; `give` names why none was found. -/
def repair (x : SearchItem) (a : ActivePath) (goal b : Nat) : Run (SearchRun × List Nat) := do
  let back := x.chan.field 13
  let depart := (List.range (b + 1)).drop (b + 1 - back)
  let rejoin := ((List.range (a.edges.length - b)).map (b + 1 + ·)).take (x.chan.field 14)
  let u ← searchRules x goal
  let u : SearchRules :=
    { u with scale := 0, emit := x.chan.field 17, expand := x.chan.field 16, depth := x.chan.field 15 }
  let skip (l : Label) (e : Nat) : Bool :=
    l.depth == 0 && ((a.windows[nth depart l.num 0]?).map (·.edge)) == some e
  let s ← searchLoop x.req x.pat u skip (fun l s => completions x u a depart l rejoin s) 65537
    (seedLabels x a depart SearchRun.empty)
  pure (s, depart)

/-- GIVE_UP_CAUSE of a repair that emitted nothing (R217). -/
def giveUpCause (s : SearchRun) : Nat := if s.budget then 3 else if s.full then 4 else 2

/-- Write DARN_RESULT, GIVE_UP_CAUSE and CYCLE_TAG alone (R215). -/
def darnHeader (it : Item) (j : Job) (list : Span) (result cause : Nat) : Run Result := do
  let w ← getWord it.requester list.key
  let gs := clean [word (setBits (setBits (setBits w 48 3 result) 51 3 cause) 96 32 it.tag.toNat)]
  change (writeGots list.key gs)
  pure (done .ok 0 0 0 (digestGots j 0 0 gs))

/-- The end of a DARN that gave up: its counter and its event (R217, R514). -/
def gaveUp (it : Item) (ch cause : Nat) (s : State) : State :=
  writeEvent { s.event 0x0404 72 with job := it.jobId, service := it.service, a := ch, b := cause, value := it.tag.toNat }
    { s with pse.gaveUp := satAdd 65535 s.pse.gaveUp 1 }

/-- DARN under an open gate. -/
def darnRun (it : Item) (j : Job) (b : Block) (p : Pattern) (c : OccCtx) (e : Epoch) (list : Span) : Run Result := do
  let ch := b.field 0
  let x ← searchSetup it j b p c e
  let s ← get
  match x.goalChanged, kindAt (s.chan ch).history x.gBase, planAt (s.chan ch).history x.gBase with
  | false, .go, some pl => do
    let ok ← aheadClear x
    if !ok then do
      change (gaveUp it ch 1)
      darnHeader it j list 3 1
    else do
      let a ← activePath x pl
      let blocked ← firstBlocked x pl.gBase a.windows 0
      match blocked with
      | none => darnHeader it j list 1 0
      | some n => do
        let goal := (s.chan ch).goal
        let (run, depart) ← repair x a goal n
        change fun s => { s with pse.expansions := satAdd (2 ^ 64 - 1) s.pse.expansions run.expansions }
        change (setChan ch fun c => { c with scratchUses := c.scratchUses + 1 })
        if run.emitted.isEmpty then do
          change (gaveUp it ch (giveUpCause run))
          darnHeader it j list 3 (giveUpCause run)
        else do
          let cs := (darnCandidates x a depart goal s.boardPos run).take x.k
          let h : ListHeader :=
            { epoch := e.number.toNat, count := cs.length, result := 0, channel := ch, budget := run.budget, full := run.full,
              goalChanged := false, darn := 2, cause := 0, expansions := run.expansions, tag := it.tag.toNat, node := x.start.node,
              time := x.start.tau }
          let gs := clean (candidateList x.k h cs)
          change fun s => { writeGots list.key gs s with pse.darned := satAdd 65535 s.pse.darned 1 }
          pure (done .ok 0 0 0 (digestGots j 0 0 gs))
  | _, _, _ => darnHeader it j list 4 0

/-- DARN. -/
def darnItem (it : Item) (j : Job) (s : State) : State × Option Result :=
  match gatedItem it j (darnRun it j) s with
  | (s, some r) => (spoilScratch it j r s, some r)
  | (s, none) => (s, none)

end Sys2Proof.Machine
end

