-- ==== Sys2Proof/Machine/Fixed.lean ====
section
/-!
DEFINITION. Fixed-point arithmetic of the Solver Lanes: saturation and rounding (R227, R228) and the Divide/Square-Root Unit (R229).
-/

namespace Sys2Proof.Machine

open Sys2Proof

/-- A computation that notes whether anything has saturated (R228). -/
abbrev Fx (α : Type) := StateM Bool α

/-- Run a computation: its value, and whether it saturated. -/
def runFx {α : Type} (m : Fx α) : α × Bool := m.run false

def minI32 : Int := -2147483648
def maxI32 : Int := 2147483647
def minI64 : Int := -9223372036854775808
def maxI64 : Int := 9223372036854775807

/-- Saturate between two bounds, noting an overflow. -/
def satTo (lo hi a : Int) : Fx Int := do
  if a < lo then
    set true
    pure lo
  else if hi < a then
    set true
    pure hi
  else pure a

/-- sat32 of R227. -/
def sat32 (a : Int) : Fx Int := satTo minI32 maxI32 a

/-- The shift of rnd before saturation (R227). -/
def rndShift (a s : Int) : Int :=
  if 0 < s then (a + 2 ^ (s.toNat - 1)) >>> s.toNat
  else a * 2 ^ (-s).toNat

/-- rnd of R227. -/
def rnd (a s : Int) : Fx Int := sat32 (rndShift a s)

/-- Sums into a 64-bit accumulator, each addition saturating (R227). -/
def accSum (start : Int) : List Int → Fx Int
  | [] => pure start
  | t :: ts => do
    let a ← satTo minI64 maxI64 (start + t)
    accSum a ts

/-- Quotient rounded to the nearest integer, ties away from zero; the divisor is not zero. -/
def roundDiv (a b : Int) : Int :=
  let q : Int := ((2 * a.natAbs + b.natAbs) / (2 * b.natAbs) : Nat)
  if (a < 0) != (b < 0) then -q else q

/-- RECIP of R229. -/
def recip (d fIn fOut : Int) : Fx Int :=
  if d == 0 then do
    set true
    pure maxI32
  else sat32 (roundDiv (2 ^ (fIn + fOut).toNat) d)

/-- DIV of R229: a × 2^(F_out − F_a + F_b) / b. -/
def fxDiv (a b fa fb fOut : Int) : Fx Int :=
  if b == 0 then
    if a == 0 then pure 0 else do
      set true
      pure (if a < 0 then minI32 else maxI32)
  else
    let e := fOut - fa + fb
    if 0 ≤ e then sat32 (roundDiv (a * 2 ^ e.toNat) b) else sat32 (roundDiv a (b * 2 ^ (-e).toNat))

/-- Integer square root by bits, from bit `n` down. -/
def isqrtBits : Nat → Nat → Nat → Nat
  | 0, x, r => if (r + 1) * (r + 1) ≤ x then r + 1 else r
  | n + 1, x, r =>
    let t := r + 2 ^ (n + 1)
    isqrtBits n x (if t * t ≤ x then t else r)

/-- The largest r with r² ≤ x, for x below 2^256. -/
def isqrt (x : Nat) : Nat := isqrtBits 127 x 0

/-- The nearest integer to √(n / d), ties upward (R229). -/
def roundSqrt (n d : Nat) : Nat :=
  let r := isqrt (n / d)
  if (2 * r + 1) * (2 * r + 1) * d ≤ 4 * n then r + 1 else r

/-- SQRT of R229, and its flag DOMAIN. -/
def fxSqrt (a : Int) (fIn fOut : Nat) : Fx (Int × Bool) :=
  if a < 0 then pure (0, true)
  else do
    let v ← sat32 (roundSqrt (a.toNat * 2 ^ (2 * fOut)) (2 ^ fIn) : Nat)
    pure (v, false)

/-- RSQRT of R229, and its flag DOMAIN. -/
def fxRsqrt (a : Int) (fIn fOut : Nat) : Fx (Int × Bool) :=
  if a ≤ 0 then pure (maxI32, true)
  else do
    let v ← sat32 (roundSqrt (2 ^ (2 * fOut + fIn)) a.toNat : Nat)
    pure (v, false)

end Sys2Proof.Machine
end

