-- ==== Sys2Proof/Machine/Solver.lean ====
section
/-!
DEFINITION. The Solver Engine (file 09): structure images (R231 to R234), slot buffers (R235), updates (R236), factorisation (R237 to
R239), iteration (R240, R241), residuals and tests (R242 to R247), warm start (R248), results (R250) and fits (R251 to R253).
Budgets are judged by the nominal times of R257, in units of 1/22 ns (assumption log 12).
-/

namespace Sys2Proof.Machine

open Sys2Proof

/-! ## Sparse patterns (R232) -/

/-- Entry numbers of column c. -/
def colRange (ptr : List Nat) (c : Nat) : List Nat :=
  (List.range (nth ptr (c + 1) 0 - nth ptr c 0)).map (nth ptr c 0 + ·)

/-- Entries (row, column, entry number) of a pattern of `n` columns, column by column. -/
def triples (ptr idx : List Nat) (n : Nat) : List (Nat × Nat × Nat) :=
  (List.range n).flatMap fun c => (colRange ptr c).map fun k => (nth idx k 0, c, k)

/-- Rows of column c. -/
def colRows (ptr idx : List Nat) (c : Nat) : List Nat := (colRange ptr c).map fun k => nth idx k 0

/-- A list ascends strictly. -/
def ascends : List Nat → Bool
  | a :: b :: t => a < b && ascends (b :: t)
  | _ => true

/-- Column pointers from 0 to the number of entries, never decreasing. -/
def pointersOk (ptr : List Nat) (nnz : Nat) : Bool :=
  nth ptr 0 1 == 0 && nth ptr (ptr.length - 1) 0 == nnz &&
    (List.range (ptr.length - 1)).all fun c => nth ptr c 0 ≤ nth ptr (c + 1) 0

/-! ## Structure images (R231, R232) -/

/-- Dimension of the KKT matrix. -/
def SolverSlot.dim (x : SolverSlot) : Nat := x.n + x.m

/-- NNZ fields of a slot. -/
def SolverSlot.nnzP (x : SolverSlot) : Nat := x.pIdx.length
def SolverSlot.nnzA (x : SolverSlot) : Nat := x.aIdx.length
def SolverSlot.nnzL (x : SolverSlot) : Nat := x.lIdx.length

/-- Field of a structure header: byte offset and length. -/
def strField (h : List Word) (at_ len : Nat) : Nat := headBytes h at_ len

/-- Word lengths of sections 1 to 6 (R232). -/
def strLengths (h : List Word) : List Nat :=
  let kind := strField h 4 1
  let n := strField h 12 2
  let m := strField h 14 2
  let np := strField h 16 4
  let na := strField h 20 4
  let nl := strField h 24 4
  if kind == 0 then
    [ceilDiv (n + m) 16, ceilDiv m 32, ceilDiv (n + 1) 8 + ceilDiv np 16, ceilDiv (n + 1) 8 + ceilDiv na 16,
     ceilDiv (n + m + 1) 8 + ceilDiv nl 16, ceilDiv np 8 + ceilDiv na 8 + ceilDiv n 8 + 2 * ceilDiv m 8]
  else
    [ceilDiv n 16, 0, ceilDiv (n + 1) 8 + ceilDiv np 16, 0, ceilDiv (n + 1) 8 + ceilDiv nl 16, ceilDiv np 8 + ceilDiv n 8]

/-- First word of section i (0 to 5) of an image. -/
def strAt (h : List Word) (i : Nat) : Nat := 2 + ((strLengths h).take i).foldl (· + ·) 0

/-- Words that an image's header implies. -/
def strWords (h : List Word) : Nat := strAt h 6

/-- Words of slot buffer that a structure needs (R235). -/
def slotWords (h : List Word) : Nat :=
  let n := strField h 12 2
  let m := strField h 14 2
  let np := strField h 16 4
  32 + (strAt h 5 - 2) + ceilDiv (np + strField h 20 4 + strField h 24 4) 8 + 2 * (n + m) +
    (if strField h 4 1 == 1 then ceilDiv (np + n) 4 else 0)

/-- Words of it that hold nothing but the factor: the L values beyond P and A, and one word for each pivot pair.  R235 gives their number and no places;
the model puts them last (DESIGN CHOICE, log 94). -/
def factorWords (h : List Word) : Nat :=
  let held := strField h 16 4 + strField h 20 4
  ceilDiv (held + strField h 24 4) 8 - ceilDiv held 8 + (strField h 12 2 + strField h 14 2)

/-- Checks 1 to 3 of R234; DETAIL_A is the byte offset of the failing field. -/
def strHeaderCheck (h : List Word) : Check Unit := do
  let kind := strField h 4 1
  let qp := kind == 0
  let byte (i : Nat) : Nat := strField h i 1
  need (strField h 0 4 == 0x46545331) 0x0105 0
  need (kind ≤ 1) 0x0105 4
  eachCheck (fun i => need (byte i ≤ 31) 0x0105 i) [5, 6, 7, 8]
  eachCheck (fun i => need (if qp then byte i == 0 else byte i ≤ 31) 0x0105 i) [9, 10]
  let e : Int := (byte 5 : Int) + signed 8 (byte 11)
  need (if qp then 0 ≤ e && e ≤ 30 else byte 11 == 0) 0x0105 11
  need (qp || strField h 14 2 == 0) 0x0105 14
  need (qp || strField h 20 4 == 0) 0x0105 20
  need (strField h 34 6 == 0) 0x0105 34
  need (strField h 48 16 == 0) 0x0105 48
  let counts : List (Nat × Nat × Nat) :=
    if qp then [(12, 2, 4096), (14, 2, 4096), (16, 4, 65536), (20, 4, 65536), (24, 4, 65536)]
    else [(12, 2, 4096), (16, 4, 65536), (24, 4, 65536)]
  eachCheck (fun (a, len, _) => do
    need (strField h a len != 2 ^ (8 * len) - 1) 0x0107 a
    need (strField h a len != 0) 0x0108 a) counts
  eachCheck (fun (a, len, lim) => need (strField h a len ≤ lim && (a != 16 || strField h 12 2 ≤ strField h a len)) 0x0106 a) counts

/-- `n` values of `width` bits from word `w` of an image, and whether the rest of their last word is zero. -/
def strValues (ws : List Word) (w width n : Nat) : List Nat × Bool :=
  let per := 256 / width
  let get (i : Nat) : Nat := Word.get (nth ws (w + i / per) 0) (width * (i % per)) width
  ((List.range n).map get, (List.range (per * ceilDiv n per - n)).all fun i => get (n + i) == 0)

/-- The slot that an image describes, at a key, with the padding of each section judged (section number, zero). -/
def parseStructure (at_ : Nat) (ws : List Word) : SolverSlot × List (Nat × Bool) :=
  let kind := strField ws 4 1
  let n := strField ws 12 2
  let m := strField ws 14 2
  let np := strField ws 16 4
  let na := strField ws 20 4
  let nl := strField ws 24 4
  let s1 := strAt ws 0
  let s2 := strAt ws 1
  let s3 := strAt ws 2
  let s4 := strAt ws 3
  let s5 := strAt ws 4
  let s6 := strAt ws 5
  let hasA := kind == 0
  let perm := strValues ws s1 16 (n + m)
  let rho := strValues ws s2 8 m
  let pPtr := strValues ws s3 32 (n + 1)
  let pIdx := strValues ws (s3 + ceilDiv (n + 1) 8) 16 np
  let aPtr := if hasA then strValues ws s4 32 (n + 1) else ([], true)
  let aIdx := if hasA then strValues ws (s4 + ceilDiv (n + 1) 8) 16 na else ([], true)
  let lPtr := strValues ws s5 32 (n + m + 1)
  let lIdx := strValues ws (s5 + ceilDiv (n + m + 1) 8) 16 nl
  let ints (l : List Nat) : List Int := l.map (signed 32 ·)
  let vq := s6 + ceilDiv np 8 + ceilDiv na 8
  let slot : SolverSlot :=
    { at_ := at_, kind := kind, n := n, m := m, fK := strField ws 5 1, fL := strField ws 6 1, fR := strField ws 7 1,
      fV := strField ws 8 1, fJ := strField ws 9 1, fW := strField ws 10 1, sigmaExp := signed 8 (strField ws 11 1),
      macs := strField ws 28 4, height := strField ws 32 2, sig := BitVec.ofNat 64 (strField ws 40 8), perm := perm.1,
      rhoExp := rho.1.map (signed 8 ·), pPtr := pPtr.1, pIdx := pIdx.1, aPtr := aPtr.1, aIdx := aIdx.1, lPtr := lPtr.1,
      lIdx := lIdx.1, p := ints (strValues ws s6 32 np).1, a := ints (strValues ws (s6 + ceilDiv np 8) 32 na).1,
      q := ints (strValues ws vq 32 n).1, l := ints (strValues ws (vq + ceilDiv n 8) 32 m).1,
      u := ints (strValues ws (vq + ceilDiv n 8 + ceilDiv m 8) 32 m).1, factor := none, returned := none, resume := none,
      nAcc := List.replicate (if kind == 1 then np else 0) 0, cAcc := List.replicate (if kind == 1 then n else 0) 0 }
  (slot, [(1, perm.2), (2, rho.2), (3, pPtr.2 && pIdx.2), (4, aPtr.2 && aIdx.2), (5, lPtr.2 && lIdx.2)])

/-- The conditions of R232 on sections 1 to 5. -/
def sectionOk (x : SolverSlot) (i : Nat) : Bool :=
  match i with
  | 1 => (List.range x.dim).all fun v => x.perm.contains v
  | 2 => x.rhoExp.all fun e => 0 ≤ (x.fK : Int) - e && (x.fK : Int) - e ≤ 30
  | 3 => pointersOk x.pPtr x.nnzP && (List.range x.n).all fun c =>
      let rows := colRows x.pPtr x.pIdx c
      ascends rows && rows.getLast? == some c
  | 4 => x.kind == 1 || (pointersOk x.aPtr x.nnzA && (List.range x.n).all fun c =>
      let rows := colRows x.aPtr x.aIdx c
      ascends rows && rows.all (· < x.m))
  | _ => pointersOk x.lPtr x.nnzL && (List.range x.dim).all fun c =>
      let rows := colRows x.lPtr x.lIdx c
      ascends (c :: rows) && rows.all (· < x.dim)

/-! ## The symbolic factor (R234 check 7, R238) -/

/-- Permuted position of an original index. -/
def SolverSlot.pos (x : SolverSlot) (o : Nat) : Nat := (firstIndex (· == o) x.perm 0).getD 0

/-- Off-diagonal entries of the permuted KKT pattern, as (row, column) with row > column. -/
def kktPairs (x : SolverSlot) : List (Nat × Nat) :=
  let low (a b : Nat) : Nat × Nat := if a < b then (b, a) else (a, b)
  ((triples x.pPtr x.pIdx x.n).filter fun (r, c, _) => r != c).map (fun (r, c, _) => low (x.pos r) (x.pos c)) ++
    (triples x.aPtr x.aIdx x.n).map fun (r, c, _) => low (x.pos (x.n + r)) (x.pos c)

/-- Columns of the symbolic factor: each column takes the rows of the columns whose first row it is. -/
def symbolicCols (pairs : List (Nat × Nat)) (dim : Nat) : List (List Nat) :=
  (List.range dim).foldl (fun cols j =>
    let own := (pairs.filter fun (_, c) => c == j).map (·.1)
    let fill := (cols.filter fun l => l.head? == some j).flatMap fun l => l.drop 1
    let rows := (List.range dim).filter fun r => own.contains r || fill.contains r
    cols ++ [rows]) []

/-- FACTOR_MACS of a factor: the products of R238. -/
def factorMacs (cols : List (List Nat)) : Nat :=
  (cols.map fun l => 3 * l.length + l.length * (l.length - 1) / 2).foldl (· + ·) 0

/-- Heights of the elimination tree's nodes, the root's being the largest of its tree. -/
def treeHeight (cols : List (List Nat)) : Nat :=
  let hs := ((List.range cols.length).zip cols).foldl (fun (hs : List Nat) (j, _) =>
    let kids := ((List.range j).zip (cols.take j)).filter fun (_, l) => l.head? == some j
    hs ++ [1 + (kids.map fun (c, _) => nth hs c 0).foldl max 0]) []
  hs.foldl max 0

/-- Checks 5 to 8 of R234. -/
def strChecks (x : SolverSlot) (pads : List (Nat × Bool)) (ws : List Word) : Check Unit := do
  eachCheck (fun (i, zero) => need (zero && sectionOk x i) 0x0105 i) pads
  need ((x.l.zip x.u).all fun (l, u) => l ≤ u) 0x0114 6
  let cols := symbolicCols (kktPairs x) x.dim
  need ((List.range x.dim).map (fun c => colRows x.lPtr x.lIdx c) == cols && factorMacs cols == x.macs &&
    treeHeight cols == x.height) 0x0114 5
  let covered := ((wordsBytes (ws.take 2)).take 40) ++ wordsBytes ((ws.drop 2).take (strAt ws 5 - 2))
  need (ofBytes ((shake64 covered).take 8) == x.sig.toNat) 0x0114 40

/-! ## Nominal times (R257), in units of 1/22 ns: an arithmetic clock is 10, a fabric clock 20 -/

def aClk : Nat := 10
def fClk : Nat := 20
def nsUnits (ns : Nat) : Nat := 22 * ns

/-- Factorisation, one step, and the residuals of iterate 0. -/
def factorTime (x : SolverSlot) : Nat := aClk * (ceilDiv x.macs 16 + x.dim + 16 * x.height)

def stepTime (x : SolverSlot) : Nat :=
  if x.kind == 0 then aClk * (ceilDiv (2 * x.nnzL + 2 * x.nnzA + 2 * x.nnzP + 4 * x.dim) 16 + 2 * x.height)
  else aClk * (ceilDiv (2 * x.nnzL + 2 * x.nnzP + 4 * x.n) 16 + 2 * x.height)

def startTime (x : SolverSlot) : Nat :=
  if x.kind == 0 then aClk * ceilDiv (2 * x.nnzA + 2 * x.nnzP + x.n) 16
  else aClk * (ceilDiv (x.nnzP + x.n) 16 + ceilDiv (2 * x.nnzP + x.n) 16)

/-- Words of the result record (R250). -/
def SolverSlot.recordWords (x : SolverSlot) : Nat := 2 + ceilDiv x.n 8 + 2 * ceilDiv x.m 8

/-! ## Factorisation (R237 to R239) -/

/-- The exponents of the pivot rule. -/
structure PivotRule where
  theta : Int
  delta : Int
  deriving DecidableEq, Repr

/-- θ and δ of R239. -/
def pivotRule (fK : Nat) (tiny delta : Int) : PivotRule :=
  let t := (fK : Int) + tiny
  let d := (fK : Int) + delta
  ⟨if 0 ≤ t then 2 ^ t.toNat else 0, if 0 ≤ d then 2 ^ d.toNat else 1⟩

/-- The regularised pivot, and whether it was tiny or zero (R239). -/
def regularise (r : PivotRule) (sign p : Int) : Fx (Int × Bool × Bool) :=
  if p == 0 then pure (sign * r.delta, false, true)
  else if (p.natAbs : Int) ≤ r.theta then do
    let d ← sat32 (p + sign * r.delta)
    pure (d, true, false)
  else pure (p, false, false)

/-- The factor while it is built: entries (row, column, value), pivots, reciprocals. -/
structure FactorBuild where
  l : List (Nat × Nat × Int) := []
  d : List Int := []
  r : List Int := []
  tiny : Nat := 0
  zero : Nat := 0
  first : Option Nat := none
  deriving DecidableEq, Repr

/-- Values of row `i` of L in columns below j: (column, value). -/
def FactorBuild.row (b : FactorBuild) (i j : Nat) : List (Nat × Int) :=
  (b.l.filter fun (r, c, _) => r == i && c < j).map fun (_, c, v) => (c, v)

/-- One column of R238.  `diag` and `off` give K in permuted order, `sign` the expected sign. -/
def factorColumn (x : SolverSlot) (rule : PivotRule) (diag : Nat → Int) (off : Nat → Nat → Int) (sign : Nat → Int)
    (b : FactorBuild) (j : Nat) : Fx FactorBuild := do
  let row := b.row j j
  let w ← row.mapM fun (k, v) => do
    let t ← rnd (v * nth b.d k 0) x.fL
    pure (k, t)
  let wv (k : Nat) : Int := ((w.find? (·.1 == k)).map (·.2)).getD 0
  let acc ← accSum (diag j * 2 ^ x.fL) (row.map fun (k, v) => -(v * wv k))
  let p ← rnd acc x.fL
  let (d, tiny, zero) ← regularise rule (sign j) p
  let r ← recip d x.fK x.fR
  let col ← (colRows x.lPtr x.lIdx j).mapM fun i => do
    let ri := (b.row i j).filter fun (k, _) => row.any (·.1 == k)
    let acc ← accSum (off i j * 2 ^ x.fL) (ri.map fun (k, v) => -(v * wv k))
    let t ← rnd acc x.fL
    let v ← rnd (t * r) ((x.fK : Int) + x.fR - x.fL)
    pure (i, j, v)
  pure { l := b.l ++ col, d := b.d ++ [d], r := b.r ++ [r], tiny := b.tiny + b2n tiny, zero := b.zero + b2n zero,
         first := if (tiny || zero) && b.first.isNone then some j else b.first }

/-- Factor a matrix given in permuted order. -/
def factorize (x : SolverSlot) (rule : PivotRule) (diag : Nat → Int) (off : Nat → Nat → Int) (sign : Nat → Int) (beyond : Bool) :
    Factor :=
  let (b, ovf) := runFx ((List.range x.dim).foldlM (factorColumn x rule diag off sign) {})
  { l := b.l.map fun (_, _, v) => v, d := b.d, r := b.r, tiny := b.tiny, zero := b.zero, firstReg := b.first,
    overflow := ovf || beyond }

/-- P_ij of the upper triangle. -/
def SolverSlot.pEntry (x : SolverSlot) (i j : Nat) : Int :=
  let r := min i j
  let c := max i j
  match (colRange x.pPtr c).find? fun k => nth x.pIdx k 0 == r with
  | some k => nth x.p k 0
  | none => 0

/-- A_ji: row j, column i. -/
def SolverSlot.aEntry (x : SolverSlot) (j i : Nat) : Int :=
  match (colRange x.aPtr i).find? fun k => nth x.aIdx k 0 == j with
  | some k => nth x.a k 0
  | none => 0

/-- The factor of the KKT matrix of a QP (R237). -/
def factorQp (x : SolverSlot) (tiny delta : Int) : Factor :=
  let orig (p : Nat) : Nat := nth x.perm p 0
  let (diags, beyond) := runFx ((List.range x.n).mapM fun i => sat32 (x.pEntry i i + 2 ^ ((x.fK : Int) + x.sigmaExp).toNat))
  let diag (p : Nat) : Int :=
    let o := orig p
    if o < x.n then nth diags o 0 else -(2 ^ ((x.fK : Int) - nth x.rhoExp (o - x.n) 0).toNat)
  let off (a b : Nat) : Int :=
    let i := orig a
    let j := orig b
    if i < x.n && j < x.n then x.pEntry i j
    else if i < x.n then x.aEntry (j - x.n) i
    else if j < x.n then x.aEntry (i - x.n) j
    else 0
  factorize x (pivotRule x.fK tiny delta) diag off (fun p => if orig p < x.n then 1 else -1) beyond

/-- Solve with a factor: right-hand side and solution in original order (R241). -/
def ldlSolve (x : SolverSlot) (f : Factor) (b : List Int) : Fx (List Int) := do
  let entries := (triples x.lPtr x.lIdx x.dim).map fun (r, c, k) => (r, c, nth f.l k 0)
  let w ← (List.range x.dim).foldlM (fun (w : List Int) p => do
    let terms := (entries.filter fun (r, _, _) => r == p).map fun (_, c, v) => -(v * nth w c 0)
    let acc ← accSum (nth b (nth x.perm p 0) 0 * 2 ^ x.fL) terms
    let v ← rnd acc x.fL
    pure (w ++ [v])) []
  let w ← ((List.range x.dim).zip w).mapM fun (p, v) => rnd (v * nth f.r p 0) x.fR
  let s ← (List.range x.dim).foldlM (fun (s : List Int) i => do
    let p := x.dim - 1 - i
    let terms := (entries.filter fun (_, c, _) => c == p).map fun (r, _, v) => -(v * nth s (r - p - 1) 0)
    let acc ← accSum (nth w p 0 * 2 ^ x.fL) terms
    let v ← rnd acc x.fL
    pure (v :: s)) []
  pure ((List.range x.dim).map fun o => nth s (x.pos o) 0)

/-! ## Iteration and residuals (R240 to R243) -/

/-- Row j of A and column i of A, as (index, value) in ascending index. -/
def SolverSlot.aRow (x : SolverSlot) (j : Nat) : List (Nat × Int) :=
  ((triples x.aPtr x.aIdx x.n).filter fun (r, _, _) => r == j).map fun (_, c, k) => (c, nth x.a k 0)

def SolverSlot.aCol (x : SolverSlot) (i : Nat) : List (Nat × Int) := (colRange x.aPtr i).map fun k => (nth x.aIdx k 0, nth x.a k 0)

/-- Row i of a symmetric matrix whose upper triangle lies on P_PATTERN. -/
def symRow (x : SolverSlot) (vals : List Int) (i : Nat) : List (Nat × Int) :=
  ((colRange x.pPtr i).map fun k => (nth x.pIdx k 0, nth vals k 0)) ++
    ((triples x.pPtr x.pIdx x.n).filter fun (r, c, _) => r == i && i < c).map fun (_, c, k) => (c, nth vals k 0)

/-- rnd(Σ value × vector, F_K) over a row. -/
def dotRow (x : SolverSlot) (row : List (Nat × Int)) (v : List Int) : Fx Int := do
  let acc ← accSum 0 (row.map fun (k, a) => a * nth v k 0)
  rnd acc x.fK

/-- The largest of absolute values. -/
def maxAbs (l : List Int) : Int := (l.map fun a => (a.natAbs : Int)).foldl max 0

/-- RES_PRIM and RES_DUAL of R242. -/
def residuals (x : SolverSlot) (xs zs ys : List Int) : Fx (Int × Int) := do
  let rp ← (List.range x.m).mapM fun j => do
    let v ← dotRow x (x.aRow j) xs
    pure (v - nth zs j 0)
  let rd ← (List.range x.n).mapM fun i => do
    let px ← dotRow x (symRow x x.p i) xs
    let aty ← dotRow x (x.aCol i) ys
    pure (px + nth x.q i 0 + aty)
  let p ← sat32 (maxAbs rp)
  let d ← sat32 (maxAbs rd)
  pure (p, d)

/-- Iterate k + 1 of a QP from iterate k (R241). -/
def qpStep (x : SolverSlot) (f : Factor) (alpha : Int) (it : Iterate) : Fx (List Int × List Int × List Int) := do
  let e (j : Nat) : Int := nth x.rhoExp j 0
  let bx ← (List.range x.n).mapM fun i => do
    let t ← rnd (nth it.x i 0) (-x.sigmaExp)
    sat32 (t - nth x.q i 0)
  let bz ← (List.range x.m).mapM fun j => do
    let t ← rnd (nth it.y j 0) (e j)
    sat32 (nth it.z j 0 - t)
  let s ← ldlSolve x f (bx ++ bz)
  let xs ← (List.range x.n).mapM fun i => rnd (alpha * nth s i 0 + (128 - alpha) * nth it.x i 0) 7
  let zy ← (List.range x.m).mapM fun j => do
    let z := nth it.z j 0
    let y := nth it.y j 0
    let t ← rnd (nth s (x.n + j) 0 - y) (e j)
    let zt ← sat32 (z + t)
    let zh ← rnd (alpha * zt + (128 - alpha) * z) 7
    let ye ← rnd y (e j)
    let c ← sat32 (zh + ye)
    let zn := min (max c (nth x.l j 0)) (nth x.u j 0)
    let dy ← rnd (zh - zn) (-(e j))
    let yn ← sat32 (y + dy)
    pure (zn, yn)
  pure (xs, zy.map (·.1), zy.map (·.2))

/-- The infeasibility test of R243 on two successive y. -/
def infeasible (x : SolverSlot) (y prev : List Int) (eps : Int) : Bool :=
  let dy := (List.range x.m).map fun j => nth y j 0 - nth prev j 0
  let d := maxAbs dy
  let (aty, _) := runFx ((List.range x.n).mapM fun i => dotRow x (x.aCol i) dy)
  let (s, _) := runFx (do
    let acc ← accSum 0 ((List.range x.m).map fun j =>
      let v := nth dy j 0
      nth x.u j 0 * max v 0 + nth x.l j 0 * min v 0)
    rnd acc x.fV)
  0 < d && 65536 * maxAbs aty ≤ eps * d &&
    ((List.range x.m).all fun j =>
      let v := nth dy j 0
      !(0 < v && nth x.u j 0 == maxI32) && !(v < 0 && nth x.l j 0 == minI32)) &&
    65536 * s < -(eps * d)

/-! ## The solve (R244 to R248) -/

/-- The parameter block of R249. -/
structure SolveParams where
  iterMax : Nat
  resume : Bool
  warm : Nat
  alpha : Int
  epsP : Int
  epsD : Int
  epsInf : Int
  deadline : Nat
  tinyExp : Int
  deltaExp : Int
  reserved : Bool
  deriving DecidableEq, Repr

/-- The parameter block in a word. -/
def solveParams (w : Nat) : SolveParams :=
  { iterMax := bits w 0 16, resume := w.testBit 16, warm := bits w 17 2, alpha := (bits w 19 8 : Nat), epsP := (bits w 32 32 : Nat),
    epsD := (bits w 64 32 : Nat), epsInf := (bits w 96 32 : Nat), deadline := bits w 128 64, tinyExp := signed 8 (w >>> 192),
    deltaExp := signed 8 (w >>> 200), reserved := bits w 27 5 != 0 || bits w 208 48 != 0 }

/-- The checks of R249 on the block; `limit` is the largest ITER_MAX. -/
def solveParamCheck (p : SolveParams) (limit : Nat) : Check Unit := do
  need (p.iterMax != 65535) 0x0107
  need (p.iterMax != 0) 0x0108
  need (p.iterMax ≤ limit && p.warm != 3 && 64 ≤ p.alpha && p.alpha ≤ 230 && !p.reserved && 1 ≤ p.epsP && p.epsP ≤ 2147483646 &&
    1 ≤ p.epsD && p.epsD ≤ 2147483646 && -31 ≤ p.tinyExp && p.tinyExp ≤ -1 && p.tinyExp + 1 ≤ p.deltaExp && p.deltaExp ≤ 0) 0x0105

/-- How a solve has ended. -/
inductive SolveEnd where
  | converged | infeasible | iterations | budget | deadline
  deriving DecidableEq, Repr

/-- What a solve leaves: the slot, its result, and what it did. -/
structure SolveOut where
  slot : SolverSlot
  ended : SolveEnd
  best : Iterate
  last : Iterate
  noValid : Bool
  firstOvf : Nat
  rejected : Bool
  resumed : Bool
  reused : Bool
  factored : Bool
  steps : Nat
  deriving DecidableEq, Repr

/-- The running solve. -/
structure SolveLoop where
  slot : SolverSlot
  cur : Iterate
  prevY : Option (List Int)
  start : Iterate
  best : Option Iterate
  /-- FIRST_OVF, once there is one -/
  firstOvf : Option Nat
  /-- time since the start of the item, in units of 1/22 ns -/
  time : Nat
  steps : Nat
  factored : Bool
  used : Bool
  deriving DecidableEq, Repr

/-- FIRST_OVF value of the factor, and of no overflow (R250). -/
def ovfFactor : Nat := 0xFFFFFFFF
def ovfNone : Nat := 0xFFFFFFFE

/-- The merit of an iterate (R242). -/
def Iterate.merit (i : Iterate) : Int := max i.resPrim i.resDual

/-- The better of two iterates: the later one on equal merit (R245). -/
def betterOf (best : Option Iterate) (i : Iterate) : Option Iterate :=
  if i.overflow then best
  else match best with
    | some b => if i.merit ≤ b.merit then some i else some b
    | none => some i

/-- What a kind of solve supplies: its factor, its next iterate, and the tests of R244 that differ. -/
structure SolveKind where
  factor : SolverSlot → Factor
  step : SolverSlot → Factor → Iterate → Fx (List Int × List Int × List Int × Int × Int)
  infeasible : SolverSlot → List Int → List Int → Bool
  /-- test 3 at an iterate number -/
  capped : Nat → Bool
  epsP : Int
  epsD : Int
  infTest : Bool

/-- The times of tests 4 and 5, from the item's start. -/
structure SolveLimits where
  budget : Nat
  deadline : Option Nat
  deriving DecidableEq, Repr

/-- The first test of R244 that holds. -/
def solveTest (k : SolveKind) (lim : SolveLimits) (s : SolveLoop) : Option SolveEnd :=
  let i := s.cur
  let step := stepTime s.slot + (if s.slot.factor.isSome then 0 else factorTime s.slot)
  let finish := s.time + (3 * step + 1) / 2 + fClk * ceilDiv s.slot.recordWords 4
  if i.resPrim ≤ k.epsP && i.resDual ≤ k.epsD && !i.overflow then some .converged
  else if k.infTest && 1 ≤ i.number && (match s.prevY with | some y => k.infeasible s.slot i.y y | none => false) then
    some .infeasible
  else if k.capped i.number then some .iterations
  else if lim.budget < finish then some .budget
  else match lim.deadline with
    | some d => if d < finish then some .deadline else none
    | none => none

/-- One step: the factorisation where it is due, and one iteration. -/
def solveStep (k : SolveKind) (s : SolveLoop) : SolveLoop :=
  let (f, slot, time, factored, first) := match s.slot.factor with
    | some f => (f, s.slot, s.time, s.factored, s.firstOvf)
    | none =>
      let f := k.factor s.slot
      (f, { s.slot with factor := some f }, s.time + factorTime s.slot, true,
        if f.overflow && s.firstOvf.isNone then some ovfFactor else s.firstOvf)
  let ((xs, zs, ys, rp, rd), ovf) := runFx (k.step slot f s.cur)
  let i : Iterate :=
    { number := s.cur.number + 1, x := xs, z := zs, y := ys, resPrim := rp, resDual := rd, overflow := ovf || f.overflow }
  { s with slot := slot, cur := i, prevY := some s.cur.y, best := betterOf s.best i,
           firstOvf := if i.overflow && first.isNone then some i.number else first,
           time := time + stepTime slot, steps := s.steps + 1, factored := factored, used := true }

/-- The solve from an iterate on; the first argument bounds the steps. -/
def solveLoop (k : SolveKind) (lim : SolveLimits) : Nat → SolveLoop → SolveLoop × SolveEnd
  | 0, s => (s, .iterations)
  | n + 1, s => match solveTest k lim s with
    | some e => (s, e)
    | none => solveLoop k lim n (solveStep k s)

/-- Begin a solve, or continue the slot's last one (R240, R247). -/
def beginSolve (slot : SolverSlot) (resume : Bool) (x z y : List Int) (res : SolverSlot → Fx (Int × Int)) (time : Nat) :
    SolveLoop :=
  match (if resume then slot.resume else none) with
  | some r =>
    { slot := { slot with resume := none }, cur := r.last, prevY := r.prevY, start := r.start, best := r.best, firstOvf := r.firstOvf,
      time := time, steps := 0, factored := false, used := false }
  | none =>
    let ((rp, rd), ovf) := runFx (res slot)
    let i : Iterate := { number := 0, x := x, z := z, y := y, resPrim := rp, resDual := rd, overflow := ovf }
    { slot := { slot with resume := none }, cur := i, prevY := none, start := i, best := betterOf none i,
      firstOvf := if ovf then some 0 else none, time := time + startTime slot, steps := 0, factored := false, used := false }

/-- Finish a solve: its best iterate (R245), and the slot with what it keeps. -/
def finishSolve (s : SolveLoop) (e : SolveEnd) (rejected resumed keep : Bool) : SolveOut :=
  let best := match s.best with
    | some b => b
    | none => { s.start with resPrim := maxI32, resDual := maxI32 }
  let resume : Option SolveState :=
    if e == .budget && keep then some { last := s.cur, prevY := s.prevY, start := s.start, best := s.best, firstOvf := s.firstOvf }
    else none
  { slot := { s.slot with returned := some best, resume := resume }, ended := e, best := best, last := s.cur, noValid := s.best.isNone,
    firstOvf := s.firstOvf.getD ovfNone, rejected := rejected, resumed := resumed, reused := s.used && !s.factored,
    factored := s.factored, steps := s.steps }

/-! ## QP solves -/

/-- The iteration of a QP under a parameter block. -/
def qpKind (p : SolveParams) : SolveKind :=
  { factor := fun x => factorQp x p.tinyExp p.deltaExp
    step := fun x f i => do
      let (xs, zs, ys) ← qpStep x f p.alpha i
      let (rp, rd) ← residuals x xs zs ys
      pure (xs, zs, ys, rp, rd)
    infeasible := fun x y prev => infeasible x y prev p.epsInf
    capped := fun n => p.iterMax ≤ n
    epsP := p.epsP
    epsD := p.epsD
    infTest := p.epsInf != 0 }

/-- The vectors of a result record (R250): `n` values from word w. -/
def recordVector (ws : List Word) (w n : Nat) : List Int := (List.range n).map fun i => signed 32 (lane32 (nth ws (w + i / 8) 0) (i % 8))

/-- A result record matches a slot in SIG, N and KIND, and in M (R248, R253). -/
def recordMatches (x : SolverSlot) (ws : List Word) (withM : Bool) : Bool :=
  let w := (nth ws 1 0).toNat
  bits w 0 64 == x.sig.toNat && bits w 64 16 == x.n && (!withM || bits w 80 16 == x.m) && bits w 104 8 == x.kind

/-- The starting point of R248, and whether a warm start was rejected. -/
def warmStart (x : SolverSlot) (warm : Nat) (rec : List Word) : List Int × List Int × List Int × Bool :=
  let zeros (n : Nat) : List Int := List.replicate n 0
  let cold := (zeros x.n, zeros x.m, zeros x.m, warm != 0)
  match warm with
  | 1 => match x.returned with
    | some i => (i.x, i.z, i.y, false)
    | none => cold
  | 2 =>
    if recordMatches x rec true then
      let zAt := 2 + ceilDiv x.n 8
      (recordVector rec 2 x.n, recordVector rec zAt x.m, recordVector rec (zAt + ceilDiv x.m 8) x.m, false)
    else cold
  | _ => cold

/-- A whole QP solve: `time` is the work before it, in units of 1/22 ns from the item's start. -/
def solveQp (x : SolverSlot) (p : SolveParams) (rec : List Word) (lim : SolveLimits) (time : Nat) (keep : Bool) : SolveOut :=
  let (xs, zs, ys, rejected) := warmStart x p.warm rec
  let s := beginSolve x p.resume xs zs ys (fun x => residuals x xs zs ys) time
  let (s, e) := solveLoop (qpKind p) lim (p.iterMax + 1) s
  finishSolve s e (rejected && !p.resume) p.resume keep

/-- FLAGS of R250. -/
def SolveOut.flags (o : SolveOut) : Nat :=
  let f := o.slot.factor
  let reg (g : Factor → Nat) : Bool := (o.steps != 0) && (match f with | some x => g x != 0 | none => false)
  at_ (b2n (reg (·.tiny))) 0 1 ||| at_ (b2n (reg (·.zero))) 1 1 ||| at_ (b2n (o.firstOvf != ovfNone || o.noValid)) 2 1 |||
    at_ (b2n o.rejected) 3 1 ||| at_ (b2n (o.ended == .iterations || o.ended == .budget)) 4 1 |||
    at_ (b2n (o.ended == .infeasible)) 5 1 ||| at_ (b2n (o.ended == .budget)) 6 1 ||| at_ (b2n o.noValid) 7 1 |||
    at_ (b2n (o.ended == .converged)) 8 1 ||| at_ (b2n o.reused) 9 1 ||| at_ (b2n o.resumed) 10 1

/-- Values packed eight to a word. -/
def packInts (l : List Int) : List Word := packWords 32 8 l.length (l.map (unsigned 32 ·))

/-- ITERATIONS of a record: the number of the last iterate; of a least-squares fit the refinement steps after iterate 1, in which R253 counts ITER_MAX
(R244, R482; DEDUCED, log 95). -/
def SolveOut.iterations (o : SolveOut) : Nat := if o.slot.kind == 1 then o.last.number - 1 else o.last.number

/-- The result record of R250. -/
def SolveOut.record (o : SolveOut) : List Word :=
  let x := o.slot
  let used := if o.steps == 0 then none else x.factor
  let regs := match used with | some f => f.tiny + f.zero | none => 0
  let first := match used with | some f => f.firstReg.getD 0xFFFFFFFF | none => 0xFFFFFFFF
  word (at_ o.flags 0 16 ||| at_ o.iterations 32 32 ||| at_ o.best.number 64 32 ||| at_ (unsigned 32 o.best.resPrim) 96 32 |||
      at_ (unsigned 32 o.best.resDual) 128 32 ||| at_ (unsigned 32 o.last.resPrim) 160 32 |||
      at_ (unsigned 32 o.last.resDual) 192 32 ||| at_ regs 224 32) ::
    word (at_ x.sig.toNat 0 64 ||| at_ x.n 64 16 ||| at_ x.m 80 16 ||| at_ x.fV 96 8 ||| at_ x.kind 104 8 ||| at_ first 128 32 |||
      at_ o.firstOvf 160 32) ::
    (packInts o.best.x ++ packInts o.best.z ++ packInts o.best.y)

/-- Status and reason of a solve (R244). -/
def SolveEnd.status (e : SolveEnd) : Status × Nat :=
  match e with
  | .deadline => (.deadlineBest, 0x0506)
  | .converged | .infeasible | .iterations | .budget => (.ok, 0)

/-- The counters of a solve on a lane, and its event 0x0507 (R244, SE registers). -/
def countSolve (it : Item) (lane warm : Nat) (o : SolveOut) (s : State) : State :=
  let f := o.slot.factor
  let new (g : Factor → Nat) : Nat := if o.factored then (match f with | some x => g x | none => 0) else 0
  let c := s.se
  let n16 (n : Nat) (b : Bool) : Nat := if b then satAdd 65535 n 1 else n
  let s := { s with
    se.resumable := if o.ended == .budget then c.resumable ||| (1#8 <<< lane) else c.resumable &&& ~~~(1#8 <<< lane)
    se.deadlineBest := n16 c.deadlineBest (o.ended == .deadline)
    se.iterationCap := n16 c.iterationCap (o.ended == .iterations || o.ended == .budget)
    se.tinyPivots := satAdd 65535 c.tinyPivots (new (·.tiny))
    se.zeroPivots := satAdd 65535 c.zeroPivots (new (·.zero))
    se.overflows := n16 c.overflows (o.firstOvf != ovfNone || o.noValid)
    se.noValid := n16 c.noValid o.noValid
    se.warmOk := n16 c.warmOk (warm != 0 && !o.rejected && !o.resumed)
    se.warmRejected := n16 c.warmRejected o.rejected
    se.infeasible := n16 c.infeasible (o.ended == .infeasible)
    se.iterations := satAdd (2 ^ 64 - 1) c.iterations o.steps }
  if o.ended == .infeasible then
    writeEvent { s.event 0x0507 70 with job := it.jobId, service := it.service, a := lane, value := o.last.number } s
  else s

/-! ## Slot buffers (R235, R249, R254) -/

/-- The loaded structure whose slot buffer begins at a key. -/
def State.slot? (s : State) (k : Nat) : Option SolverSlot := s.se.slots.find? (·.at_ == k)

/-- Keep a slot's private contents. -/
def setSlotBuffer (x : SolverSlot) (s : State) : State := { s with se.slots := x :: s.se.slots.filter (·.at_ != x.at_) }

/-- A solve keeps its factor and its values in the slot, and writes the factor's words anew (R255). -/
def keepSlot (x : SolverSlot) (s : State) : State := setSlotBuffer x (writePrivate (x.at_ + x.fixed) (x.words - x.fixed) s)

/-- A lane operation. -/
def laneOp (op : Nat) : Bool := op == 0x0501 || op == 0x0502 || op == 0x0503 || op == 0x0504

/-- The lane whose item, begun and not yet complete, holds a slot buffer (R254). -/
def State.slotHolder (s : State) (id k : Nat) : Option Nat :=
  (s.shu.items.find? fun x =>
    x.id != id && x.phase == .running && x.result.isSome && laneOp (Entry.op x.entry) &&
      (match s.jobIn x.slot with
       | some j => (match j.operandSpan x.entry 1 with | some sp => sp.key == k | none => false)
       | none => false)).map fun x => Entry.param x.entry % 8

/-- The slot is free for an item (R254); a refusal is counted. -/
def slotFree (it : Item) (k : Nat) : Run Unit := do
  let s ← get
  match s.slotHolder it.id k with
  | some lane =>
    change fun s => { s with se.busyRefused := satAdd 65535 s.se.busyRefused 1 }
    throw { reason := 0x0111, detailA := lane }
  | none => pure ()

/-- An uncorrectable word: the factor is not valid and the slot not resumable (R255). -/
def spoilSlot (k : Nat) (s : State) : State :=
  { s with se.slots := s.se.slots.map fun x => if x.at_ == k then { x with factor := none, resume := none } else x }

/-- Run a lane program whose outputs, on poison, are `words` words of operand `n` (R255, R399). -/
def laneItem (it : Item) (j : Job) (slotKey n words : Nat) (m : Run Result) (s : State) : State × Option Result :=
  match runProg m s with
  | (s, .ok r) => (s, some r)
  | (s, .error f) =>
    if f.status == .poisoned then
      let s := spoilSlot slotKey s
      match j.operandSpan it.entry n with
      | some sp => poisonOut j it n (min words sp.len) s
      | none => (s, some poisonedResult)
    else (s, some f.result)

/-! ## STRUCTURE_LOAD (R233, R234) -/

/-- The words of an image that the operand holds, missing ones taken as zero. -/
def getImage (r : Requester) (sp : Span) (n : Nat) : Run (List Word) := do
  let ws ← getWords r sp.key (min n sp.len)
  pure (ws.map word ++ List.replicate (n - sp.len) 0)

/-- Check 9 of R234. -/
def loadTimeOk (x : SolverSlot) : Bool := factorTime x + stepTime x ≤ nsUnits 38000

/-- STRUCTURE_LOAD for an item. -/
def structureLoad (it : Item) (image slot : Span) : Run Result := do
  let r := it.requester
  slotFree it slot.key
  let h ← getImage r image 2
  checkOp fun _ => strHeaderCheck h
  ensure (strWords h ≤ image.len) 0x0101 0
  ensure (slotWords h ≤ slot.len) 0x0101 0xFF
  let ws ← getImage r image (strWords h)
  let (x, pads) := parseStructure slot.key ws
  checkOp fun _ => strChecks x pads ws
  ensure (loadTimeOk x) 0x0110 0
  change fun s => setSlotBuffer { x with words := slotWords h, fixed := slotWords h - factorWords h } (writePrivate slot.key (slotWords h) s)
  pure done

/-- Count a load (SE_LOADS). -/
def countLoad (r : Option Result) (s : State) : State :=
  match r with
  | some x =>
    if x.status == .ok then { s with se.loadsOk := satAdd 65535 s.se.loadsOk 1 }
    else { s with se.loadsRefused := satAdd 65535 s.se.loadsRefused 1 }
  | none => s

/-! ## Value updates (R236) -/

/-- An update entry. -/
structure Update where
  value : Int
  position : Nat
  target : Nat
  reserved : Bool
  deriving DecidableEq, Repr

/-- An update entry in 64 bits. -/
def updateOf (w : Nat) : Update :=
  { value := signed 32 w, position := bits w 32 24, target := bits w 56 3, reserved := bits w 59 5 != 0 }

/-- Length of a target of a slot. -/
def targetLength (x : SolverSlot) (t : Nat) : Nat :=
  match t with
  | 0 => x.p.length | 1 => x.a.length | 2 => x.q.length | 3 => x.l.length | 4 => x.u.length | _ => 0

/-- Apply one update. -/
def applyUpdate (x : SolverSlot) (u : Update) : SolverSlot :=
  match u.target with
  | 0 => { x with p := x.p.set u.position u.value, factor := none }
  | 1 => { x with a := x.a.set u.position u.value, factor := none }
  | 2 => { x with q := x.q.set u.position u.value }
  | 3 => { x with l := x.l.set u.position u.value }
  | 4 => { x with u := x.u.set u.position u.value }
  | _ => x

/-- Check a whole list and apply it (R236); the slot becomes not resumable (R247). -/
def applyUpdates (x : SolverSlot) (us : List Update) : Check SolverSlot := do
  need (us.all fun u => !u.reserved && u.target ≤ 4 && u.position < targetLength x u.target) 0x0105
  let y := us.foldl applyUpdate { x with resume := none }
  need ((y.l.zip y.u).all fun (l, u) => l ≤ u) 0x0114
  .ok y

/-- The update list of an operand. -/
def getUpdates (r : Requester) (sp : Span) : Run (List Update) := do
  let w ← getWord r sp.key
  let count := bits w 0 32
  ensure (count != 4294967295) 0x0107
  ensure (count != 0) 0x0108
  ensure (bits w 32 224 == 0) 0x0105
  ensure (count ≤ 65536) 0x0106
  ensure (1 + ceilDiv count 4 ≤ sp.len) 0x0101
  let ws ← getWords r (sp.key + 1) (ceilDiv count 4)
  pure ((List.range count).map fun i => updateOf (bits (nth ws (i / 4) 0) (64 * (i % 4)) 64))

/-! ## QP_SOLVE (R249) -/

/-- Limits of R244 tests 4 and 5 for an item that starts now: `budget` in ns. -/
def solveLimits (s : State) (budget deadline : Nat) : SolveLimits :=
  ⟨nsUnits budget, if deadline == 0 then none else some (nsUnits (deadline - s.now))⟩

/-- The slot named by an operand, of a kind (R249).  The lane reads its header, and the words that the header shows, those of the factor where it is
valid; a word that carries poison ends the item, and the next solve, whose factor is not valid, refactors (R255). -/
def getSlot (r : Requester) (slot : Span) (kind : Nat) : Run SolverSlot := do
  let s ← get
  let x := s.slot? slot.key
  discard (getAll r slot.key (min slot.len (match x with | some x => (if x.factor.isSome then x.words else x.fixed) | none => 32)))
  match x with
  | some x => if x.kind == kind then pure x else throw { reason := 0x0114, detailA := 2 }
  | none => throw { reason := 0x0114, detailA := 2 }

/-- The checks on resumption (R247). -/
def resumeCheck (p : SolveParams) (x : SolverSlot) (list : Option Span) : Check Unit := do
  need (!p.resume || (list.isNone && p.warm == 0)) 0x0114 3
  need (!p.resume || x.resume.isSome) 0x0114 1

/-- QP_SOLVE for an item. -/
def qpSolve (it : Item) (j : Job) (param slot : Span) (list : Option Span) (out : Span) : Run Result := do
  let r := it.requester
  let lane := Entry.param it.entry % 8
  let w ← getWord r param.key
  let p := solveParams w
  checkOp fun _ => solveParamCheck p 65534
  let x ← getSlot r slot 0
  slotFree it slot.key
  checkOp fun _ => resumeCheck p x list
  ensure (x.recordWords ≤ out.len) 0x0101
  let us ← match list with
    | some sp => getUpdates r sp
    | none => pure []
  let rec_ ← if p.warm == 2 then getAll r out.key x.recordWords else pure []
  let y ← if us.isEmpty then pure x else checkOp fun _ => applyUpdates x us
  let s ← get
  let time := fClk * (88 + if us.isEmpty then 0 else 20 + ceilDiv us.length 16)
  let o := solveQp y p rec_ (solveLimits s 38000 p.deadline) time true
  let gs := clean o.record
  change fun s => countSolve it lane p.warm o (writeGots out.key gs (keepSlot o.slot s))
  let (st, reason) := o.ended.status
  pure (done st reason 0 0 (digestGots j 3 0 gs))

/-- A QP_SOLVE, EASE or LSQ_FIT SOLVE item completes (SE_SOLVES). -/
def countSolveItem (s : State) : State := { s with se.solves := satAdd 4294967295 s.se.solves 1 }

/-! ## Least-squares fits (R251 to R253) -/

/-- A row record of two words. -/
structure FitRow where
  idx : List Nat
  coef : List Int
  w : Int
  b : Int
  ok : Bool
  deriving DecidableEq, Repr

/-- The row record in two words, judged against a slot (R251). -/
def fitRow (x : SolverSlot) (w0 w1 : Nat) : FitRow :=
  let nz := bits w0 0 4
  let is := (List.range 8).map fun i => bits w0 (128 + 16 * i) 16
  let cs := (List.range 8).map fun i => signed 32 (w1 >>> (32 * i))
  let idx := is.take nz
  let pairOk (a b : Nat) : Bool := (colRows x.pPtr x.pIdx (max a b)).contains (min a b)
  { idx := idx, coef := cs.take nz, w := signed 32 (w0 >>> 32), b := signed 32 (w0 >>> 64),
    ok := 1 ≤ nz && nz ≤ 8 && bits w0 4 28 == 0 && bits w0 96 32 == 0 && (is.drop nz).all (· == 0) && (cs.drop nz).all (· == 0) &&
      idx.all (· < x.n) && idx.eraseDups.length == idx.length && idx.all fun a => idx.all fun b => pairOk a b }

/-- Add into a saturating 64-bit accumulator. -/
def accAdd (a t : Int) : Int := (runFx (satTo minI64 maxI64 (a + t))).1

/-- A row's contribution to the accumulators (R252). -/
def accumulateRow (x : SolverSlot) (r : FitRow) : SolverSlot :=
  let us := r.coef.map fun c => (runFx (rnd (r.w * c) x.fW)).1
  let v := (runFx (rnd (r.w * r.b) x.fW)).1
  let n := r.idx.length
  let pairs := (List.range n).flatMap fun a => (List.range n).map fun b => (a, b)
  let nAcc := pairs.foldl (fun acc (a, b) =>
    let ia := nth r.idx a 0
    let ib := nth r.idx b 0
    if ia ≤ ib then
      match (colRange x.pPtr ib).find? fun k => nth x.pIdx k 0 == ia with
      | some k => acc.set k (accAdd (nth acc k 0) (nth us a 0 * nth r.coef b 0))
      | none => acc
    else acc) x.nAcc
  let cAcc := (List.range n).foldl (fun acc a =>
    let ia := nth r.idx a 0
    acc.set ia (accAdd (nth acc ia 0) (v * nth r.coef a 0))) x.cAcc
  { x with nAcc := nAcc, cAcc := cAcc }

/-- The rows of an accumulate operand, two words each, all checked before any is applied. -/
def getRows (r : Requester) (x : SolverSlot) (k : Nat) : List Nat → Run (List FitRow)
  | [] => pure []
  | i :: t => do
    let w0 ← getWord r (k + 2 * i)
    let w1 ← getWord r (k + 2 * i + 1)
    let row := fitRow x w0 w1
    ensure row.ok 0x0105 (i % 65536)
    let rows ← getRows r x k t
    pure (row :: rows)

/-- The common checks of LSQ_FIT. -/
def lsqBegin (it : Item) (param slot : Span) (list : Option Span) : Run (SolveParams × SolverSlot) := do
  let w ← getWord it.requester param.key
  let p := solveParams w
  checkOp fun _ => solveParamCheck p 8
  let x ← getSlot it.requester slot 1
  slotFree it slot.key
  checkOp fun _ => resumeCheck p x list
  pure (p, x)

/-- The accumulate phases of LSQ_FIT; `clear` first sets every accumulator to zero. -/
def lsqAccumulate (clear : Bool) (it : Item) (param slot rows : Span) : Run Result := do
  let (_, x) ← lsqBegin it param slot (some rows)
  let rs ← getRows it.requester x rows.key (List.range (rows.len / 2))
  let x := if clear then { x with nAcc := x.nAcc.map fun _ => 0, cAcc := x.cAcc.map fun _ => 0 } else x
  let y := rs.foldl accumulateRow { x with factor := none, resume := none }
  change (setSlotBuffer y)
  pure done

/-- The normal matrix on P_PATTERN, and c (R253 step 1). -/
def normalMatrix (x : SolverSlot) (xref : List Int) : Fx (List Int) × Fx (List Int) :=
  let mat : Fx (List Int) := (triples x.pPtr x.pIdx x.n).mapM fun (r, c, k) => do
    let v ← rnd (nth x.nAcc k 0) (2 * (x.fJ : Int) - x.fK)
    if r == c then sat32 (v + nth x.q c 0) else pure v
  let vec : Fx (List Int) := (List.range x.n).mapM fun a => do
    let v ← rnd (nth x.cAcc a 0) x.fJ
    let t ← rnd (nth x.q a 0 * nth xref a 0) x.fK
    sat32 (v + t)
  (mat, vec)

/-- c − N x, and its largest absolute value. -/
def fitResidual (x : SolverSlot) (mat c xs : List Int) : Fx (List Int × Int) := do
  let r ← (List.range x.n).mapM fun i => do
    let v ← dotRow x (symRow x mat i) xs
    pure (nth c i 0 - v)
  let m ← sat32 (maxAbs r)
  pure (r, m)

/-- The iteration of a fit (R253). -/
def fitKind (p : SolveParams) (mat c : List Int) (matOvf cOvf : Bool) : SolveKind :=
  { factor := fun x =>
      let val (i j : Nat) : Int := ((symRow x mat i).find? (·.1 == j)).elim 0 (·.2)
      let orig (q : Nat) : Nat := nth x.perm q 0
      factorize x (pivotRule x.fK p.tinyExp p.deltaExp) (fun q => val (orig q) (orig q)) (fun a b => val (orig a) (orig b))
        (fun _ => 1) matOvf
    step := fun x f i => do
      if cOvf then set true
      let rhs ← if i.number == 0 then pure c else do
        let (r, _) ← fitResidual x mat c i.x
        r.mapM sat32
      let d ← ldlSolve x f rhs
      let xs ← if i.number == 0 then pure d else (List.range x.n).mapM fun a => sat32 (nth i.x a 0 + nth d a 0)
      let (_, m) ← fitResidual x mat c xs
      pure (xs, [], [], m, 0)
    infeasible := fun _ _ _ => false
    capped := fun n => 1 ≤ n && p.iterMax ≤ n - 1
    epsP := p.epsP
    epsD := 0
    infTest := false }

/-- The solve of a least-squares fit from the record that OPERAND3 holds (R252, R253): started from its vector where it matches the slot. -/
def solveLsq (x : SolverSlot) (p : SolveParams) (rec_ : List Word) (lim : SolveLimits) (time : Nat) : SolveOut :=
  let found := recordMatches x rec_ false
  let xref := if found then recordVector rec_ 2 x.n else List.replicate x.n 0
  let (mat, matOvf) := runFx (normalMatrix x xref).1
  let (c, cOvf) := runFx (normalMatrix x xref).2
  let res (x : SolverSlot) : Fx (Int × Int) := do
    if cOvf || matOvf then set true
    let (_, m) ← fitResidual x mat c xref
    pure (m, 0)
  let b := beginSolve x p.resume xref [] [] res time
  let (l, e) := solveLoop (fitKind p mat c matOvf cOvf) lim (p.iterMax + 2) b
  finishSolve l e (!found && !p.resume) p.resume true

/-- SOLVE of LSQ_FIT. -/
def lsqSolve (it : Item) (j : Job) (param slot out : Span) : Run Result := do
  let (p, x) ← lsqBegin it param slot none
  let lane := Entry.param it.entry % 8
  ensure (x.recordWords ≤ out.len) 0x0101
  let rec_ ← getAll it.requester out.key x.recordWords
  let s ← get
  let o := solveLsq x p rec_ (solveLimits s 38000 p.deadline) (fClk * 88)
  let gs := clean o.record
  change fun s => countSolve it lane 2 o (writeGots out.key gs (keepSlot o.slot s))
  let (st, reason) := o.ended.status
  pure (done st reason 0 0 (digestGots j 3 0 gs))

/-! ## The lane operations on their items -/

/-- STRUCTURE_LOAD. -/
def structureLoadItem (it : Item) (j : Job) (s : State) : State × Option Result :=
  match j.operandSpan it.entry 0, j.operandSpan it.entry 1 with
  | some img, some slot =>
    let (s, r) := itemProg (structureLoad it img slot) s
    (countLoad r s, r)
  | _, _ => (s, some (Fail.result { reason := 0x0105 }))

/-- Words of the result record that a slot's solve writes; the operand's length where no structure is loaded. -/
def State.slotRecord (s : State) (slot out : Span) : Nat :=
  match s.slot? slot.key with
  | some x => x.recordWords
  | none => out.len

/-- QP_SOLVE. -/
def qpSolveItem (it : Item) (j : Job) (s : State) : State × Option Result :=
  match j.operandSpan it.entry 0, j.operandSpan it.entry 1, j.operandSpan it.entry 3 with
  | some p, some slot, some out =>
    let (s, r) := laneItem it j slot.key 3 (s.slotRecord slot out) (qpSolve it j p slot (j.operandSpan it.entry 2) out) s
    (countSolveItem s, r)
  | _, _, _ => (s, some (Fail.result { reason := 0x0105 }))

/-- LSQ_FIT CLEAR_ACCUMULATE and ACCUMULATE. -/
def lsqAccumulateItem (clear : Bool) (it : Item) (j : Job) (s : State) : State × Option Result :=
  match j.operandSpan it.entry 0, j.operandSpan it.entry 1, j.operandSpan it.entry 2 with
  | some p, some slot, some rows => laneItem it j slot.key 3 0 (lsqAccumulate clear it p slot rows) s
  | _, _, _ => (s, some (Fail.result { reason := 0x0105 }))

/-- LSQ_FIT SOLVE. -/
def lsqSolveItem (it : Item) (j : Job) (s : State) : State × Option Result :=
  match j.operandSpan it.entry 0, j.operandSpan it.entry 1, j.operandSpan it.entry 3 with
  | some p, some slot, some out =>
    let (s, r) := laneItem it j slot.key 3 (s.slotRecord slot out) (lsqSolve it j p slot out) s
    (countSolveItem s, r)
  | _, _, _ => (s, some (Fail.result { reason := 0x0105 }))

end Sys2Proof.Machine
end

