-- ==== Sys2Proof/Machine/Ease.lean ====
section
/-!
DEFINITION. Ease (file 10): the limits (R261), the covered part (R262), the values of the problem (R264 to R266), the times (R267), the
check (R269), the stop branch (R270) and the EASE item with its trajectory record (R259, R271 to R274).
-/

namespace Sys2Proof.Machine

open Sys2Proof

/-! ## Limits (R260, R261) -/

/-- The limits of one joint: as the check uses them, and margined for the problem. -/
structure JointLimits where
  v : Nat
  a : Nat
  aLim : Nat
  j : Nat
  vHat : Nat
  aHat : Nat
  jHat : Nat
  deriving DecidableEq, Repr

/-- The limits of joint k of a channel block. -/
def jointLimits (b : Block) (jt : Joint) (k : Nat) : JointLimits :=
  let m := 64 - b.field 68
  let v := if b.defaulted (19 + k) then jt.vmax else b.field (19 + k)
  let aLim := b.field (27 + k)
  let a := min aLim (65536 * (b.field (43 + k) - b.field (51 + k)) / b.field (59 + k))
  let j := b.field (35 + k)
  { v := v, a := a, aLim := aLim, j := j, vHat := v * m / 64, aHat := a * m / 64, jHat := j * m / 64 }

/-- The limits of the joints of a partition. -/
def channelLimits (b : Block) (joints : List Joint) : List JointLimits :=
  ((List.range joints.length).zip joints).map fun (k, jt) => jointLimits b jt k

/-- The tests of R261 at arm. -/
def limitsOk (b : Block) (joints : List Joint) : Bool :=
  ((List.range joints.length).zip (channelLimits b joints)).all fun (k, l) =>
    b.field (51 + k) < b.field (43 + k) && l.aHat != 0 && l.jHat != 0

/-! ## Values of the problem (R265, R266) -/

/-- The nearest integer, ties away from zero. -/
def roundRat (x : Rat) : Int := roundDiv x.num x.den

/-- A value n / d in a format with F fraction bits: exact, rounded once, sat32 (R265). -/
def ratValue (n d : Rat) (f : Nat) : Fx Int :=
  if d == 0 then
    if n == 0 then pure 0
    else do
      set true
      pure (if n < 0 then minI32 else maxI32)
  else sat32 (roundRat (n / d * 2 ^ f))

/-- q'_k(i) and q''_k(i) of R263, from the 64 positions of a joint. -/
def pathFirst (q : List Int) (i : Nat) : Rat :=
  let at_ (n : Nat) : Rat := (nth q n 0 : Int)
  if i == 0 then at_ 1 - at_ 0 else if i == 63 then at_ 63 - at_ 62 else (at_ (i + 1) - at_ (i - 1)) / 2

def pathSecond (q : List Int) (i : Nat) : Rat :=
  let n := min (max i 1) 62
  let at_ (n : Nat) : Rat := (nth q n 0 : Int)
  at_ (n + 1) - 2 * at_ n + at_ (n - 1)

/-- What the values are formed from: grid times, positions by joint, limits, and the velocity at the start. -/
structure EaseProblem where
  grid : Grid
  q : List (List Int)
  lim : List JointLimits
  before : Option Interval
  deriving DecidableEq, Repr

/-- ĥ_i in ms. -/
def EaseProblem.hHat (e : EaseProblem) (i : Nat) : Rat := ((e.grid.time (i + 1) - e.grid.time i : Nat) : Rat) / 100

/-- The coefficient of row r on variable c (R264, R265). -/
def easeCoefficient (x : SolverSlot) (e : EaseProblem) (r c : Nat) : Fx Int :=
  let k := r % 8
  match e.q[k]?, e.lim[k]? with
  | some q, some l =>
    if r < 512 then
      let i := r / 8
      if c == i then ratValue (256 * pathSecond q i) (l.aHat : Rat) x.fK
      else if c == 64 + i then ratValue (256 * pathFirst q i) (l.aHat : Rat) x.fK
      else pure 0
    else if r < 1016 then
      let i := (r - 512) / 8
      let d := (l.jHat : Rat) * e.hHat i
      if c == i then ratValue (-(4096 * pathSecond q i)) d x.fK
      else if c == 64 + i then ratValue (-(4096 * pathFirst q i)) d x.fK
      else if c == i + 1 then ratValue (4096 * pathSecond q (i + 1)) d x.fK
      else if c == 65 + i then ratValue (4096 * pathFirst q (i + 1)) d x.fK
      else pure 0
    else if (r == 1016 && c == 0) || (r == 1017 && c == 63) then ratValue 1 1 x.fK
    else pure 0
  | _, _ => if (r == 1016 && c == 0) || (r == 1017 && c == 63) then ratValue 1 1 x.fK else pure 0

/-- The joint of largest |q'_k(0)|, the lowest on ties. -/
def steepestJoint (e : EaseProblem) : Nat :=
  (((List.range e.q.length).zip e.q).foldl (fun (best : Nat × Rat) (k, q) =>
    let a := (pathFirst q 0).abs
    if best.2 < a then (k, a) else best) (0, -1)).1

/-- b_start of R265. -/
def bStart (x : SolverSlot) (e : EaseProblem) : Fx Int :=
  match e.before with
  | none => pure 0
  | some b =>
    let d := steepestJoint e
    let v := nth b.v d 0 * 1000000
    let s := pathFirst (nth e.q d []) 0
    ratValue (v * v) (s * s) x.fV

/-- bt_i before rounding, in units of the format F_V: none of the joints moves gives 2^31 − 1. -/
def btExact (x : SolverSlot) (e : EaseProblem) (i : Nat) : Rat :=
  if i == 63 then 0
  else
    let l := (e.q.zip e.lim).filterMap fun (q, l) =>
      let s := pathFirst q i
      if s == 0 then none else some (((l.vHat : Rat) / s) * ((l.vHat : Rat) / s) * 2 ^ x.fV)
    match minBy (fun a b => a < b) l with
    | some m => m
    | none => (maxI32 : Rat)

/-- at_i before rounding, in units of the format F_V. -/
def atExact (x : SolverSlot) (e : EaseProblem) (i : Nat) : Rat :=
  let b := btExact x e
  if i == 63 then 0
  else if i == 0 then (b 1 - b 0) / 2
  else if i == 62 then (b 63 - b 61) / 4
  else (b (i + 1) - b (i - 1)) / 4

/-- q of variable i < 64 or 64 + i (R265). -/
def easeLinear (x : SolverSlot) (e : EaseProblem) (v : Nat) : Fx Int := do
  let t ← sat32 (roundRat (if v < 64 then btExact x e v else atExact x e (v - 64)))
  let w ← rnd (x.pEntry v v * t) x.fK
  sat32 (-w)

/-- The slot with the 3,200 values of R266 applied. -/
def easeUpdate (x : SolverSlot) (e : EaseProblem) : Fx SolverSlot := do
  let a ← (triples x.aPtr x.aIdx x.n).mapM fun (r, c, _) => easeCoefficient x e r c
  let q ← (List.range x.n).mapM fun v => if v == 63 || v == 127 then pure (nth x.q v 0) else easeLinear x e v
  let b ← bStart x e
  pure { x with a := a, q := q, l := x.l.set 1016 b, u := x.u.set 1016 b, factor := none, resume := none }

/-! ## Times (R267) and the check (R269) -/

/-- T_0 to T_63 from the b of an iterate; none for STALL. -/
def easeTimes (x : SolverSlot) (b : List Int) (tStart : Nat) : Option (List Nat) :=
  let roots := b.map fun v => (runFx (fxSqrt (max v 0) x.fV 16)).1.1
  let sums := (List.range 63).map fun i => nth roots i 0 + nth roots (i + 1) 0
  if sums.any (· == 0) then none
  else
    let ts := runningSums tStart (sums.map fun s => (roundDiv 131072000000 s).toNat)
    if ts.getLastD 0 > 4000000000 then none else some ts

/-- A failure of the check: cause (3 VELOCITY, 4 ACCEL, 5 JERK), point, joint, TORQUE. -/
structure CheckFail where
  cause : Nat
  point : Nat
  joint : Nat
  torque : Bool
  deriving DecidableEq, Repr

/-- The measures of one joint from point i on: the first failure at or after it, as (point, cause, torque). -/
def jointCheck (l : JointLimits) (time : Nat → Nat) (q : Nat → Int) (v0 a0 : Rat) (h0 : Nat) : List Nat → List (Nat × Nat × Bool)
  | [] => []
  | i :: t =>
    let h := if i == 63 then time 63 - time 62 else time (i + 1) - time i
    let v : Rat := if i == 63 then 0 else mkRat (q (i + 1) - q i) h
    let a := (v - v0) / mkRat (h0 + h) 2
    let here :=
      if (l.v : Rat) < v.abs * 1000000 then [(i, 3, false)]
      else if (l.a : Rat) < a.abs * 256 * 1000000000000 then [(i, 4, decide (l.a < l.aLim))]
      else if (l.j : Rat) * h0 < (a - a0).abs * 4096 * 1000000000000000000 then [(i, 5, false)]
      else []
    here ++ jointCheck l time q v a h t

/-- The check of R269 on 64 samples: the first failure by point, then joint. -/
def limitCheck (lim : List JointLimits) (time : Nat → Nat) (q : List (List Int)) (before : Option Interval) : Option CheckFail :=
  let fails := ((List.range lim.length).zip lim).flatMap fun (k, l) =>
    let (v0, a0, h0) := match before with
      | some b => (nth b.v k 0, nth b.a k 0, b.h)
      | none => ((0 : Rat), (0 : Rat), time 1 - time 0)
    (jointCheck l time (fun i => nth (nth q k []) i 0) v0 a0 h0 (List.range 64)).map fun (i, c, t) =>
      ({ cause := c, point := i, joint := k, torque := t } : CheckFail)
  minBy (fun a b => a.point < b.point || (a.point == b.point && a.joint < b.joint)) fails

/-- Positions by joint from positions by sample. -/
def byJoint (joints : Nat) (samples : List (List Int)) : List (List Int) :=
  (List.range joints).map fun k => samples.map fun s => nth s k 0

/-! ## Stop branch (R270) -/

/-- The stop-branch sample times relative to g_base, and their warped go-times. -/
def stopTimes (tB tau : Nat) : List (Nat × Nat) :=
  (List.range 64).map fun j =>
    let den := 2 * 63 ^ 4
    let num := tau * (2 * 63 ^ 3 * j + j ^ 4 - 2 * 63 * j ^ 3)
    (stopSample tB tau j, tB + (2 * num + den) / (2 * den))

/-- Positions of a trajectory at times from its g_base. -/
def planPositions (r : Requester) (p : Pattern) (joints : List Joint) (h : List Segment) (g : Nat) : List Nat → Run (List (List Int))
  | [] => pure []
  | t :: ts => do
    let a ← placeAt r p h (g + t) g
    let q ← getPlace r p joints a
    let l ← planPositions r p joints h g ts
    pure (q :: l)

/-- One attempt of the stop branch of a plan at the head of a history. -/
def stopAttempt (r : Requester) (p : Pattern) (joints : List Joint) (lim : List JointLimits) (h : List Segment) (pl : Plan) (tB tau : Nat)
    (before : Option Interval) : Run (Option CheckFail) := do
  let ts := stopTimes tB tau
  let qs ← planPositions r p joints h pl.gBase (ts.map (·.2))
  pure (limitCheck lim (fun i => (nth ts i (0, 0)).1) (byJoint joints.length qs) before)

/-- The attempts τ = STOP_TIME × 2^n for the exponents listed: attempts made, τ kept, last failure. -/
def stopAttempts (r : Requester) (p : Pattern) (joints : List Joint) (lim : List JointLimits) (h : List Segment) (pl : Plan)
    (tB stop : Nat) (before : Option Interval) : List Nat → Nat → Option CheckFail → Run (Nat × Nat × Option CheckFail)
  | [], n, f => pure (n, 0, f)
  | e :: es, n, _ => do
    let tau := stop * 2 ^ e
    let f ← stopAttempt r p joints lim h pl tB tau before
    match f with
    | none => pure (n + 1, tau, none)
    | some f => stopAttempts r p joints lim h pl tB stop before es (n + 1) (some f)

/-! ## Windows (R268, R274) -/

/-- Go-time at which a node at nominal time c is reached, as a fraction. -/
def nodeTime (g : Grid) (ts : List Nat) (c : Nat) : Rat :=
  let i := ((List.range 64).filter fun i => g.time i ≤ c).length - 1
  let t0 := nth ts i 0
  if g.time i == c || 63 ≤ i then (t0 : Rat)
  else
    let t1 := nth ts (i + 1) 0
    (t0 : Rat) + mkRat (((t1 - t0 : Nat) : Int) * ((c - g.time i : Nat) : Int)) (g.time (i + 1) - g.time i)

/-- The greatest x ≤ tau, searched by bits from `n` down, whose warped time does not exceed y (R270). -/
def warpBits (tau : Nat) (y : Rat) : Nat → Nat → Nat
  | 0, x => x
  | n + 1, x =>
    let c := x + 2 ^ n
    let f : Nat := 2 * tau ^ 3 * c + c ^ 4 - 2 * tau * c ^ 3
    warpBits tau y n (if c ≤ tau && mkRat f (2 * tau ^ 3) ≤ y then c else x)

/-- The stop time x at which the stop branch reaches a go-time y past T_B, rounded down or up. -/
def warpInverse (tau : Nat) (y : Rat) (up : Bool) : Nat :=
  let x := warpBits tau y 40 0
  let f : Nat := 2 * tau ^ 3 * x + x ^ 4 - 2 * tau * x ^ 3
  if up && mkRat f (2 * tau ^ 3) < y then x + 1 else x

/-- A window entry of an edge entered and left at go-times (R274). -/
def easeWindow (tB tau edge : Nat) (entry exit : Rat) (ahead : Bool) : Window :=
  let goIn := entry.floor.toNat
  let goOut := exit.ceil.toNat
  let b : Rat := (tB : Rat)
  let rest := b + mkRat tau 2
  let (si, so) :=
    if tau == 0 then (goIn, goOut)
    else if rest ≤ entry then (openTime, openTime)
    else
      (if entry ≤ b then goIn else tB + warpInverse tau (entry - b) false,
       if exit ≤ b then goOut else if exit ≤ rest then tB + warpInverse tau (exit - b) true else openTime)
  { edge := edge, goIn := goIn, goOut := goOut, stopIn := si, stopOut := so, ahead := ahead }

/-- The word of a window entry. -/
def Window.word (w : Window) : Word :=
  Machine.word (at_ w.edge 0 21 ||| at_ w.goIn 32 32 ||| at_ w.goOut 64 32 ||| at_ w.stopIn 96 32 ||| at_ w.stopOut 128 32 |||
    at_ (b2n w.ahead) 160 1)

/-! ## The trajectory record (R273) -/

/-- The header of a record. -/
structure RecordHead where
  valid : Bool := false
  cause : Nat := 0
  torque : Bool := false
  inStop : Bool := false
  /-- the mark DEADLINE, and whether the solve ended DEADLINE_BEST -/
  deadline : Bool := false
  best : Bool := false
  point : Nat := 0
  joint : Nat := 0
  tries : Nat := 0
  cand : Nat := 0
  epoch : Nat := 0
  count : Nat := 0
  aheadLen : Nat := 0
  covered : Nat := 0
  tEnd : Nat := 0
  tB : Nat := 0
  stop : Nat := 0
  tag : Nat := 0
  deriving DecidableEq, Repr

/-- Word 0. -/
def RecordHead.word (h : RecordHead) : Word :=
  Machine.word (at_ (b2n h.valid) 0 1 ||| at_ h.cause 1 4 ||| at_ (b2n h.torque) 5 1 ||| at_ (b2n h.inStop) 6 1 |||
    at_ (b2n h.deadline) 7 1 ||| at_ h.point 8 8 ||| at_ h.joint 16 3 ||| at_ h.tries 19 2 ||| at_ h.cand 32 32 ||| at_ h.epoch 64 32 |||
    at_ h.count 96 7 ||| at_ h.aheadLen 103 4 ||| at_ h.covered 107 7 ||| at_ h.tEnd 128 32 ||| at_ h.tB 160 32 ||| at_ h.stop 192 32 |||
    at_ h.tag 224 32)

/-- A record with its times and windows; a VALID 0 record holds zero in words 1 to 80. -/
def trajectoryRecord (h : RecordHead) (ts : List Nat) (ws : List Window) : List Word :=
  if !h.valid then h.word :: List.replicate 80 0
  else h.word :: (packWords 32 8 8 ts ++ ws.map Window.word ++ List.replicate (72 - ws.length) 0)

/-! ## The EASE item (R259, R262, R271) -/

/-- The candidate that an EASE item times, from the kept list. -/
structure EaseCandidate where
  id : Nat
  epoch : Nat
  goal : Nat
  aheadLen : Nat
  edges : List Nat
  deriving DecidableEq, Repr

/-- The candidate in the 10 words of a record (R212). -/
def easeCandidate (ws : List Nat) : EaseCandidate :=
  let h := nth ws 0 0
  { id := bits h 0 32, epoch := bits h 192 32, goal := bits h 160 32, aheadLen := bits h 39 4,
    edges := (List.range (bits h 32 7)).map fun i => bits (nth ws (1 + i / 8) 0) (32 * (i % 8)) 21 }

/-- T_B = ceil(PERIOD × 10^6 / VIRT_RATE) (R270). -/
def stopBranchTime (s : State) (j : Job) : Nat :=
  ceilDiv (((j.blockOf 0x10).map (·.field 1)).getD 0 * 1000000) (s.devField 0 10 0)

/-- The covered edges of a candidate from its edge i on (R262): the list ends at a STOP_NODE, at the goal, or at EASE_SPAN. -/
def coveredEdges (r : Requester) (p : Pattern) (goal span sigma0 : Nat) : List Nat → Nat → Nat → Run (List (Nat × Nat))
  | [], _, _ => pure []
  | e :: es, n, sum => do
    let x ← getEdge r p e
    let d ← getNode r p x.dst
    let len := if n == 0 && sigma0 != 0 then restOfEdge x.duration sigma0 else x.duration
    if d.stop || x.dst == goal || span ≤ sum + len || n == 63 then pure [(e, x.duration)]
    else do
      let l ← coveredEdges r p goal span sigma0 es (n + 1) (sum + len)
      pure ((e, x.duration) :: l)

/-- What an EASE item does before the solve: its candidate's grid, positions and start. -/
structure EaseSetup where
  problem : EaseProblem
  joints : List Joint
  tStart : Nat
  sigma0 : Nat
  first : Nat
  covered : List Nat
  start : StartState
  deriving DecidableEq, Repr

/-- Positions of the 64 grid points. -/
def gridPositions (r : Requester) (p : Pattern) (joints : List Joint) (g : Grid) : Run (List (List Int)) :=
  getPlaces r p joints ((List.range 64).map fun i => let x := g.point i; Place.edge x.1 x.2)

/-- Setup of a candidate; none where no edge lies beyond its start. -/
def easeSetup (r : Requester) (p : Pattern) (b : Block) (hist : List Segment) (gBase : Nat) (c : EaseCandidate) :
    Run (Option EaseSetup) := do
  let joints ← channelJoints r p b
  let st ← startState r p hist gBase
  let (sigma0, tStart, first) := match st.rest with
    | some (sg, g) => (sg, g - gBase, c.aheadLen - 1)
    | none => (0, (match st.ahead with | some (_, _, g) => g - gBase | none => 0), c.aheadLen)
  let cov ← coveredEdges r p c.goal (b.field 67) sigma0 (c.edges.drop first) 0 0
  if cov.isEmpty then pure none
  else do
    let g := makeGrid (cov.map (·.1)) (cov.map (·.2)) sigma0
    let q ← gridPositions r p joints g
    let before ← if st.moving then intervalAt r p joints hist (gBase + tStart) gBase else pure none
    pure (some { problem := { grid := g, q := byJoint joints.length q, lim := channelLimits b joints, before := before },
                 joints := joints, tStart := tStart, sigma0 := sigma0, first := first, covered := cov.map (·.1), start := st })

/-- The parameters of the solve (R266). -/
def easeParams (b : Block) (gFire : Nat) : SolveParams :=
  { iterMax := b.field 71, resume := false, warm := 1, alpha := (b.field 72 : Nat), epsP := (b.field 75 : Nat), epsD := (b.field 76 : Nat),
    epsInf := 65536, deadline := gFire + 1000 * b.field 70 - 2200, tinyExp := b.int 73, deltaExp := b.int 74, reserved := false }

/-- Words of EASE's OPERAND3: the trajectory record and the result record. -/
def easeWords : Nat := 355

/-- What follows a solve that returned an iterate: times, check, stop branch, record (R267 to R274). -/
def easeFinish (r : Requester) (p : Pattern) (b : Block) (hist : List Segment) (gBase : Nat) (c : EaseCandidate) (u : EaseSetup)
    (x : SolverSlot) (best : List Int) (h : RecordHead) : Run (RecordHead × List Nat × List Window) := do
  match easeTimes x (best.take 64) u.tStart with
  | none => pure ({ h with cause := 6 }, [], [])
  | some ts =>
    let time (i : Nat) : Nat := nth ts i 0
    let h : RecordHead := { h with covered := u.covered.length, tEnd := time 63 }
    match limitCheck u.problem.lim time u.problem.q u.problem.before with
    | some f => pure ({ h with cause := f.cause, torque := f.torque, point := f.point, joint := f.joint }, [], [])
    | none => do
      let tB := h.tB
      let n := u.covered.length
      let draft := trajectoryRecord
        { h with valid := true, count := n } ts (u.covered.map fun e => ⟨e, 0, 0, 0, 0, false⟩)
      let pl : Plan := { record := draft, gBase := gBase, start := 0, tag := 0, sigma0 := u.sigma0 }
      let going := beginMotion gBase (.go pl) hist
      let (tries, tau, fail) ← if time 63 ≤ tB then pure (0, 0, none) else do
        let before ← intervalAt r p u.joints going (gBase + tB + 1) gBase
        stopAttempts r p u.joints u.problem.lim going pl tB (1000000 * b.field 69) before [0, 1, 2, 3] 0 none
      match fail with
      | some f =>
        pure ({ h with cause := 7, torque := f.torque, inStop := true, point := f.point, joint := f.joint, tries := tries - 1 }, [], [])
      | none =>
        let g := u.problem.grid
        let heads := (c.edges.take u.first).map fun e =>
          match u.start.ahead with
          | some (e', a, z) =>
            if e' == e then easeWindow tB tau e ((a - gBase : Nat) : Rat) ((z - gBase : Nat) : Rat) true
            else easeWindow tB tau e 0 (u.tStart : Rat) true
          | none => easeWindow tB tau e 0 (u.tStart : Rat) true
        let body := ((List.range n).zip u.covered).map fun (m, e) =>
          easeWindow tB tau e (if m == 0 && u.start.rest.isSome then 0 else nodeTime g ts (nth g.starts m 0)) (nodeTime g ts (nth g.starts (m + 1) 0)) (u.first + m < c.aheadLen)
        let ws := (heads ++ body).take 72
        pure ({ h with valid := true, count := ws.length, stop := tau / 1000, tries := tries - 1 }, ts, ws)

/-- Count a record (SE_EASE registers). -/
def countEase (h : RecordHead) (s : State) : State :=
  let c := s.se
  let n8 (i : Nat) (n : Nat) : Nat := if i == h.cause && !h.valid then satAdd 255 n 1 else n
  { s with se := { c with
      easeValid := satAdd 65535 c.easeValid (b2n h.valid)
      easeInvalid := satAdd 65535 c.easeInvalid (b2n !h.valid)
      easeCause := ((List.range 9).zip c.easeCause).map fun (i, n) => n8 i n
      stopTries := satAdd 65535 c.stopTries (if h.valid || h.inStop then h.tries else 0)
      deadlineValid := satAdd 65535 c.deadlineValid (b2n (h.valid && h.best)) } }

/-- Write a record, and the result record of a solve after it. -/
def writeEase (j : Job) (it : Item) (h : RecordHead) (ts : List Nat) (ws : List Window) (tail : List Word) (st : Status) (reason : Nat) :
    Run Result := do
  change (countEase h)
  let (s, d) := writeOut j it 3 0 (clean (trajectoryRecord h ts ws ++ tail)) (← get)
  set s
  pure (done st reason 0 0 d)

/-- EASE for an item of a channel's service.  A record from a solve that its item budget or its deadline ended carries the mark DEADLINE (R482). -/
def easeRun (it : Item) (j : Job) (b : Block) (p : Pattern) (list slot : Span) : Run Result := do
  let r := it.requester
  let s ← get
  getChState r j b
  let x ← getSlot r slot 0
  ensure (x.sig.toNat == b.field 77 && x.n == 128 && x.m == 1024) 0x0114 2
  slotFree it slot.key
  let pos := bits (Entry.param it.entry) 3 4
  let lane := Entry.param it.entry % 8
  let w ← getWord r list.key
  let tag := bits w 96 32
  let h : RecordHead := { tag := tag, tB := stopBranchTime s j }
  checkOp fun _ => keptCount w list.len
  if bits w 32 5 ≤ pos then writeEase j it { h with cause := 8 } [] [] [] .ok 0
  else do
    let ws ← getWords r (list.key + 1 + 10 * pos) 10
    checkOp fun _ => edgeCount (nth ws 0 0)
    let c := easeCandidate ws
    let h : RecordHead := { h with cand := c.id, epoch := c.epoch, aheadLen := c.aheadLen }
    let gBase := s.gBaseOf b it.tag
    let hist := (s.chan (b.field 0)).history
    let u ← easeSetup r p b hist gBase c
    match u with
    | none => writeEase j it { h with cause := 8 } [] [] [] .ok 0
    | some u => do
      let (y, beyond) := runFx (easeUpdate x u.problem)
      if beyond then writeEase j it { h with cause := 2 } [] [] [] .ok 0
      else do
        let ps := easeParams b (gBase - 1000 * b.field 11)
        let o := solveQp y ps [] (solveLimits s 34000 ps.deadline) (nsUnits 1000 + fClk * 308) false
        change fun s => countSolve it lane 1 o (keepSlot o.slot s)
        let (st, reason) := o.ended.status
        let h : RecordHead := { h with deadline := o.ended == .deadline || o.ended == .budget, best := o.ended == .deadline }
        if o.ended == .infeasible then writeEase j it { h with cause := 1 } [] [] o.record st reason
        else if o.noValid then writeEase j it { h with cause := 2 } [] [] o.record st reason
        else do
          let (h, ts, ws) ← easeFinish r p b hist gBase c u o.slot o.best.x h
          writeEase j it h ts ws o.record st reason

/-- EASE. -/
def easeItem (it : Item) (j : Job) (s : State) : State × Option Result :=
  match j.itemChannel it, s.pat.active, j.operandSpan it.entry 0, j.operandSpan it.entry 1 with
  | some b, some p, some list, some slot =>
    let (s, r) := laneItem it j slot.key 3 easeWords (easeRun it j b p list slot) s
    (countSolveItem { s with se.easeItems := satAdd 4294967295 s.se.easeItems 1 }, r)
  | _, _, _, _ => (s, some (Fail.result { reason := 0x0114, detailA := 2 }))

end Sys2Proof.Machine
end

