-- ==== Sys2Proof/Machine/ChannelB.lean ====
section
/-!
DEFINITION. Channel B (R348 to R356): the robot model, forward kinematics, the poses of a trajectory record, the voxel test and
CHECK_B.
-/

namespace Sys2Proof.Machine

open Sys2Proof

/-! ## The robot model (R349) -/

/-- A rotation, row by row, and a translation. -/
structure Transform where
  r : List Int
  t : List Int
  deriving DecidableEq, Repr

/-- A capsule. -/
structure Capsule where
  link : Nat
  a : List Int
  b : List Int
  radius : Nat
  deriving DecidableEq, Repr

/-- A model image. -/
structure RobotModel where
  base : Transform
  joints : List Transform
  capsules : List Capsule
  deriving DecidableEq, Repr

/-- Signed 32-bit entry `i` of words. -/
def entryOf (ws : List Word) (i : Nat) : Int := signed 32 (lane32 (nth ws (i / 8) 0) (i % 8))

/-- A transform in two words. -/
def transformOf (ws : List Word) : Transform := ⟨(List.range 9).map (entryOf ws), (List.range 3).map fun i => entryOf ws (9 + i)⟩

/-- A capsule in a word. -/
def capsuleOf (w : Word) : Capsule :=
  { link := Word.get w 0 4, a := (List.range 3).map fun i => entryOf [w] (1 + i), b := (List.range 3).map fun i => entryOf [w] (4 + i),
    radius := lane32 w 7 }

/-- J and C of a model image. -/
def modelJoints (ws : List Word) : Nat := Word.get (nth ws 0 0) 32 8
def modelCapsules (ws : List Word) : Nat := Word.get (nth ws 0 0) 40 8

/-- The model in an image. -/
def modelOf (ws : List Word) : RobotModel :=
  let j := modelJoints ws
  { base := transformOf (ws.drop 1)
    joints := (List.range j).map fun i => transformOf (ws.drop (3 + 2 * i))
    capsules := (List.range (modelCapsules ws)).map fun c => capsuleOf (nth ws (3 + 2 * j + c) 0) }

/-- The tests of R348 on a model image at arm. -/
def modelCheck (ws : List Word) (joints : Nat) (sig : Nat) : Bool :=
  lane32 (nth ws 0 0) 0 == 0x46544D31 && modelJoints ws == joints && 1 ≤ modelCapsules ws && modelCapsules ws ≤ 16 &&
    3 + 2 * joints + modelCapsules ws ≤ ws.length &&
    ofBytes ((shake64 (wordsBytes ((ws.take (3 + 2 * joints + modelCapsules ws)).drop 1))).take 8) == sig

/-! ## Forward kinematics (R350) -/

/-- π in units of 2^−128, rounded down. -/
def pi128 : Nat := 0x3243F6A8885A308D313198A2E03707344

/-- sin of r quarter-wave steps, in units of 2^−128: 20 terms of the series, with an error far below the distance of any entry of
SIN from a rounding boundary. -/
def sinSeries (r : Nat) : Int :=
  let x := pi128 * r / 32768
  let x2 := (x * x) >>> 128
  let step (a : Int × Nat) (k : Nat) : Int × Nat :=
    (if k % 2 == 0 then a.1 + (a.2 : Int) else a.1 - (a.2 : Int), ((a.2 * x2) >>> 128) / ((2 * k + 2) * (2 * k + 3)))
  ((List.range 20).foldl step ((0 : Int), x)).1

/-- SIN on the first quarter: round(2^30 sin(π r / 32,768)). -/
def quarterSin (r : Nat) : Int := (sinSeries r + 2 ^ 97) >>> (98 : Nat)

/-- SIN and COS. -/
def sinTable (q : Nat) : Int :=
  let r := q % 16384
  match q / 16384 % 4 with
  | 0 => quarterSin r
  | 1 => quarterSin (16384 - r)
  | 2 => -quarterSin r
  | _ => -quarterSin (16384 - r)

def cosTable (q : Nat) : Int := sinTable ((q + 16384) % 65536)

/-- X·Y. -/
def matMul (x y : List Int) : Fx (List Int) :=
  (List.range 9).mapM fun n => do
    let a ← accSum 0 ((List.range 3).map fun m => nth x (3 * (n / 3) + m) 0 * nth y (3 * m + n % 3) 0)
    rnd a 30

/-- X·t. -/
def matVec (x t : List Int) : Fx (List Int) :=
  (List.range 3).mapM fun i => do
    let a ← accSum 0 ((List.range 3).map fun m => nth x (3 * i + m) 0 * nth t m 0)
    rnd a 30

/-- p + R·t, saturated. -/
def transport (f : Transform) (t : List Int) : Fx (List Int) := do
  let v ← matVec f.r t
  ((f.t.zip v).mapM fun (a, b) => sat32 (a + b))

/-- The frame after a joint at position q. -/
def jointFrame (f : Transform) (off : Transform) (jt : Joint) (q : Int) : Fx Transform := do
  let r ← matMul f.r off.r
  let p ← transport f off.t
  if jt.prismatic then do
    let t ← transport ⟨r, p⟩ [0, 0, q * (jt.quantum : Int)]
    pure ⟨r, t⟩
  else do
    let a := (q % 65536).toNat
    let m ← matMul r [cosTable a, -sinTable a, 0, sinTable a, cosTable a, 0, 0, 0, 1073741824]
    pure ⟨m, p⟩

/-- The frames 0 to J. -/
def frames (f : Transform) : List (Transform × Joint × Int) → Fx (List Transform)
  | [] => pure [f]
  | (off, jt, q) :: t => do
    let g ← jointFrame f off jt q
    let l ← frames g t
    pure (f :: l)

/-- A capsule in place: its end points. -/
def placeCapsule (fs : List Transform) (c : Capsule) : Fx (List Int × List Int) := do
  let f := nth fs c.link ⟨[], []⟩
  let e ← transport f c.a
  let g ← transport f c.b
  pure (e, g)

/-! ## The voxel test (R352) -/

/-- PITCH_UM and ORIGIN of the grid. -/
structure VoxelGrid where
  pitch : Nat
  origin : List Int
  deriving DecidableEq, Repr

def gridOf (c : OccCtx) : VoxelGrid := ⟨c.block.field 0, [c.block.int 1, c.block.int 2, c.block.int 3]⟩

/-- Voxels on an axis (R131). -/
def axisSize (a : Nat) : Nat := if a == 2 then 128 else 256

/-- A point lies within the grid extent. -/
def VoxelGrid.holds (g : VoxelGrid) (e : List Int) : Bool :=
  (List.range 3).all fun a =>
    nth g.origin a 0 ≤ nth e a 0 && nth e a 0 < nth g.origin a 0 + ((g.pitch * axisSize a : Nat) : Int)

/-- r_eff. -/
def effectiveRadius (g : VoxelGrid) (r : Nat) : Nat := r + ceilDiv (g.pitch * 866026) 1000000

/-- The box of a capsule on an axis: first and last voxel, clipped. -/
def boxAxis (g : VoxelGrid) (r : Nat) (e f : List Int) (a : Nat) : Nat × Nat :=
  let o := nth g.origin a 0
  let lo := min (nth e a 0) (nth f a 0)
  let hi := max (nth e a 0) (nth f a 0)
  ((max 0 (fdiv (lo - (r : Int) - o) (g.pitch : Int))).toNat,
   (min ((axisSize a : Int) - 1) (fdiv (hi + (r : Int) - o) (g.pitch : Int))).toNat)

/-- Dot product. -/
def dot (a b : List Int) : Int := ((a.zip b).map fun (x, y) => x * y).foldl (· + ·) 0

/-- Difference of two points. -/
def minus (a b : List Int) : List Int := (a.zip b).map fun (x, y) => x - y

/-- The exact test of a voxel centre against a capsule. -/
def capsuleHit (e f c : List Int) (r : Nat) : Bool :=
  let u := minus f e
  let w := minus c e
  let tnum := dot w u
  let den := dot u u
  let r2 : Int := ((r * r : Nat) : Int)
  if den == 0 || tnum ≤ 0 then dot w w ≤ r2
  else if den ≤ tnum then dot (minus c f) (minus c f) ≤ r2
  else dot w w * den - tnum * tnum ≤ r2 * den

/-- The centre of a voxel. -/
def VoxelGrid.centre (g : VoxelGrid) (x y z : Nat) : List Int :=
  (g.origin.zip [x, y, z]).map fun (o, c) => o + ((c * g.pitch + g.pitch / 2 : Nat) : Int)

/-- How a pose test ended early: CAUSE, FAIL_CAPSULE and FAIL_VOXEL. -/
structure PoseEnd where
  cause : Nat
  capsule : Nat
  voxel : Nat
  deriving DecidableEq, Repr

/-- Arithmetic clocks in 23.9 µs, and those of the setup (R354, R356). -/
def checkBudget : Nat := 52580
def checkSetup : Nat := 1100

/-- What the test of one capsule works with. -/
structure CapsuleTest where
  req : Requester
  occ : OccCtx
  grid : VoxelGrid
  slice : Nat
  number : Nat
  e : List Int
  f : List Int
  radius : Nat
  deriving DecidableEq, Repr

/-- The set voxels of one bitmap word, in ascending index: each takes 8 clocks, and the budget is checked before each. -/
def testVoxels (t : CapsuleTest) (w y z : Nat) : List Nat → Nat → Nat × Option PoseEnd
  | [], clk => (clk, none)
  | x :: xs, clk =>
    if !w.testBit x then testVoxels t w y z xs clk
    else if checkBudget ≤ clk then (clk, some ⟨5, 0, 0⟩)
    else if capsuleHit t.e t.f (t.grid.centre x y z) t.radius then (clk + 8, some ⟨1, t.number, 65536 * z + 256 * y + x⟩)
    else testVoxels t w y z xs (clk + 8)

/-- The words of a box, in ascending order: one for each y and z. -/
def testWords (t : CapsuleTest) (xs : List Nat) : List (Nat × Nat) → Nat → Run (Nat × Option PoseEnd)
  | [], clk => pure (clk, none)
  | (y, z) :: l, clk => do
    let w ← getWord t.req (t.occ.bitmapAt t.slice (y + 256 * z))
    let (clk, o) := testVoxels t w y z xs (clk + 1)
    match o with
    | some p => pure (clk, some p)
    | none => testWords t xs l clk

/-- Numbers from `a` to `b`. -/
def span (a b : Nat) : List Nat := (List.range (b + 1 - a)).map (a + ·)

/-- The capsules of a pose, in ascending order. -/
def testCapsules (r : Requester) (c : OccCtx) (slice : Nat) (fs : List Transform) : List Capsule → Nat → Nat →
    Run (Nat × Option PoseEnd)
  | [], _, clk => pure (clk, none)
  | k :: ks, n, clk => do
    let g := gridOf c
    let ((e, f), beyond) := runFx (placeCapsule fs k)
    if beyond || !g.holds e || !g.holds f then pure (clk, some ⟨3, n, 0⟩)
    else do
      let rad := effectiveRadius g k.radius
      let (x0, x1) := boxAxis g rad e f 0
      let (y0, y1) := boxAxis g rad e f 1
      let (z0, z1) := boxAxis g rad e f 2
      let t : CapsuleTest := { req := r, occ := c, grid := g, slice := slice, number := n, e := e, f := f, radius := rad }
      let (clk, o) ← testWords t (span x0 x1) ((span z0 z1).flatMap fun z => (span y0 y1).map fun y => (y, z)) clk
      match o with
      | some p => pure (clk, some p)
      | none => testCapsules r c slice fs ks (n + 1) clk

/-! ## Poses (R351) -/

/-- The sample times of a record. -/
def sampleTimes (tB tau step : Nat) : List Nat :=
  let ends := if tau == 0 then [tB] else [tB, tB + tau]
  let multiples := (List.range ((tB + tau) / step + 1)).map (· * step)
  sortBy (· < ·) (multiples ++ ends.filter (· % step != 0))

/-- The tested poses: time and relative slice of each sample, then the rest tests. -/
def testedPoses (c : OccCtx) (e : Epoch) (gBase tB tau step : Nat) : List (Nat × Nat) :=
  let k (t : Nat) : Nat := relSlice c e (gBase + t)
  let last := tB + tau
  (sampleTimes tB tau step).map (fun t => (t, k t)) ++ (span (k last + 1) 15).map fun n => (last, n)

/-- What the walk over poses works with. -/
structure PoseWalk where
  req : Requester
  pat : Pattern
  occ : OccCtx
  epoch : Epoch
  joints : List Joint
  model : RobotModel
  hist : List Segment
  gBase : Nat
  deriving DecidableEq, Repr

/-- One tested pose (R352). -/
def testPose (x : PoseWalk) (t k clk : Nat) : Run (Nat × Option PoseEnd) := do
  if x.epoch.forced.getLsbD k then pure (clk, some ⟨2, 0, 0⟩)
  else do
    let pl ← placeAt x.req x.pat x.hist (x.gBase + t) x.gBase
    let out ← match pl with
      | .node _ => pure false
      | .edge e _ => do
        let g ← getGeo x.req x.pat x.joints e
        pure g.out
    if out then pure (clk, some ⟨4, 0, 0⟩)
    else do
      let q ← getPlace x.req x.pat x.joints pl
      let (fs, beyond) := runFx (frames x.model.base (x.model.joints.zip (x.joints.zip q)))
      if beyond then pure (clk, some ⟨3, 0, 0⟩)
      else testCapsules x.req x.occ (x.epoch.t0 + k) fs x.model.capsules 0 clk

/-- The tested poses in order from pose n on; 16 poses share the clocks of a pass (R356). -/
def walkPoses (x : PoseWalk) : List (Nat × Nat) → Nat → Nat → Run (Nat × Option (PoseEnd × Nat))
  | [], n, _ => pure (n, none)
  | (t, k) :: l, n, clk => do
    let clk := if n % 16 == 0 then clk + 64 * x.joints.length + 32 * x.model.capsules.length else clk
    if checkBudget ≤ clk then pure (n, some (⟨5, 0, 0⟩, 0))
    else do
      let (clk, o) ← testPose x t k clk
      match o with
      | some p => pure (n, some (p, k))
      | none => walkPoses x l (n + 1) clk

/-! ## CHECK_B (R353 to R355) -/

/-- The verdict record. -/
structure Verdict where
  verdict : Nat
  cause : Nat := 0
  capsule : Nat := 0
  pose : Nat := 0
  voxel : Nat := 0
  slice : Nat := 0
  poses : Nat := 0
  deriving DecidableEq, Repr

/-- Its word, for a trajectory record and the epoch applied to OCC_BITMAP. -/
def Verdict.word (v : Verdict) (r : List Word) (applied : Nat) : Word :=
  Machine.word (at_ v.verdict 0 2 ||| at_ v.cause 2 4 ||| at_ v.capsule 8 8 ||| at_ v.pose 16 16 ||| at_ (recField r 32 32) 32 32 |||
    at_ (recField r 64 32) 64 32 ||| at_ applied 96 32 ||| at_ (recField r 224 32) 128 32 ||| at_ v.voxel 160 23 |||
    at_ v.slice 184 4 ||| at_ v.poses 192 32 ||| at_ (recField r 192 32) 224 32)

/-- The verdict of a walk that ended. -/
def verdictOf (n : Nat) (o : Option (PoseEnd × Nat)) : Verdict :=
  match o with
  | none => { verdict := 0, poses := n }
  | some (p, k) =>
    if p.cause == 5 then { verdict := 2, cause := 5, poses := n }
    else { verdict := 1, cause := p.cause, capsule := p.capsule, pose := n, voxel := p.voxel, slice := k, poses := n }

/-- The verdict on a record that is VALID and whose epoch is applied. -/
def checkWalk (it : Item) (j : Job) (b : Block) (p : Pattern) (c : OccCtx) (e : Epoch) (r : List Word) (model : Span) : Run Verdict := do
  let req := it.requester
  let s ← get
  getChState req j b
  let joints ← channelJoints req p b
  let m ← getAll req model.key model.len
  let g := s.gBaseOf b it.tag
  let hist := (s.chan (b.field 0)).history
  let st ← startState req p hist g
  let sigma0 := match st.rest with | some (sg, _) => sg | none => 0
  let pl : Plan := { record := r, gBase := g, start := 0, tag := it.tag, sigma0 := sigma0 }
  let x : PoseWalk :=
    { req := req, pat := p, occ := c, epoch := e, joints := joints, model := modelOf m, hist := beginMotion g (.stop pl) hist, gBase := g }
  let (n, o) ← walkPoses x (testedPoses c e g (recTB r) (recTau r) (1000 * b.field 80)) 0 checkSetup
  pure (verdictOf n o)

/-- CHECK_B: the rows of R354. -/
def checkRun (it : Item) (j : Job) (b : Block) (rec_ model : Span) : Run Result := do
  let r ← getAll it.requester rec_.key 81
  let s ← get
  let applied := match s.occ.applied with | some e => e.number.toNat | none => 0
  let v ← match s.occ.applied, s.pat.active, s.occCtx with
    | some e, some p, some c =>
      if !(recField r 0 1 == 1) then pure { verdict := 2, cause := 6 }
      else if e.number.toNat != recField r 64 32 then pure { verdict := 3 }
      else checkWalk it j b p c e r model
    | _, _, _ => pure (if recField r 0 1 == 1 then { verdict := 3 } else { verdict := 2, cause := 6 })
  change fun s => { s with
    sm.verdictBlocked := satAdd 65535 s.sm.verdictBlocked (b2n (v.verdict == 1))
    sm.verdictBudget := satAdd 65535 s.sm.verdictBudget (b2n (v.cause == 5)) }
  let (s, d) := writeOut j it 3 0 (clean [v.word r applied]) (← get)
  set s
  pure (done .ok 0 0 0 d)

/-- CHECK_B on its item. -/
def checkBItem (it : Item) (j : Job) (s : State) : State × Option Result :=
  match j.itemChannel it, j.operandSpan it.entry 0, j.operandSpan it.entry 2 with
  | some b, some rec_, some model =>
    (match runProg (checkRun it j b rec_ model) s with
     | (s, .ok r) => (s, some r)
     | (s, .error f) => if f.status == .poisoned then poisonOut j it 3 1 s else (s, some f.result))
  | _, _, _ => (s, some (Fail.result { reason := 0x0105 }))

end Sys2Proof.Machine
end

