-- ==== Sys2Proof/Machine/Seam.lean ====
section
/-!
DEFINITION. The Seam (R357 to R361): release records, holds, STITCH and HOLD; and the latching of Safety Manager causes with the
entry into Safe-Hold (R362, R364).
-/

namespace Sys2Proof.Machine

open Sys2Proof

/-! ## Causes of the Safety Manager (R362, R364) -/

/-- Causes that stand, bit n: cause n. -/
def State.standing (s : State) : Nat :=
  b2n (!s.sm.covered) + 2 * b2n s.sm.safeReq + 4 * b2n s.sm.overdue + 8 * b2n s.sm.testFailed +
    128 * b2n (s.fw.expired ||| s.fw.stuck != 0) + 256 * b2n s.sm.tampered

/-- The causes of Safe-Hold and of Degraded. -/
def holdCauses : BitVec 9 := 0b101111011
def degradeCauses : BitVec 9 := 0b010000100

/-- SM_STATE.STATE: 0 Normal, 1 Degraded, 2 Safe-Hold. -/
def State.smState (s : State) : Nat :=
  if s.sm.latched &&& holdCauses != 0 then 2 else if s.sm.latched &&& degradeCauses != 0 then 1 else 0

/-- A reason that a STITCH leaves for the hold of its cycle (R221, R359). -/
def noteItem (reason : Nat) (s : State) (it : Item) : State :=
  match (s.jobIn it.slot).bind (·.itemChannel it) with
  | some b => noteReason (b.field 0) it.tag reason s
  | none => s

/-- Entry into Safe-Hold: STITCH items end ABORTED (R364); one that has completed keeps its result (R365). -/
def enterSafeHold (s : State) : State :=
  let r := done .aborted 0x0208
  let s := (s.shu.items.filter fun it => Entry.op it.entry == 0x0902 && it.result.isNone).foldl (noteItem 0x0208) s
  let s := cancelWhere (fun it => Entry.op it.entry == 0x0902) r s
  (s.shu.items.filter fun it => Entry.op it.entry == 0x0902 && it.phase == .running && it.result.isNone).foldl
    (fun s it => abortRunning it.id r s) s

/-- Latch a cause. -/
def latchCause (n reason : Nat) (s : State) : State :=
  if s.sm.latched.getLsbD n then s
  else
    let before := s.smState
    let s := { s with sm.latched := s.sm.latched ||| BitVec.ofNat 9 (2 ^ n), sm.lastCause := BitVec.ofNat 16 reason }
    if before != 2 && s.smState == 2 then enterSafeHold s else s

/-- A difference between the copies of the Seam (target code 0xFFF0) or of the Safety Manager (0xFFF1): alarm 0x0904 and the cause SELF_CHECK
(R361, R362, R373). -/
def copiesDiffer (target : Nat) (s : State) : State :=
  latchCause 5 0x0904 (raiseAlarm 0x0904 target 0 { s with sm.lastFail := BitVec.ofNat 16 target })

/-! ## Hand-off to the Field Port (R359, R451) -/

/-- The enabled FIELD_PORT block of a port. -/
def State.fieldBlock (s : State) (n : Nat) : Option Block := s.devBlock (1 + n)

/-- A node of a port's table. -/
structure NodeDef where
  plca : Nat
  role : Nat
  channel : Nat
  timeout : Nat
  mac : Nat
  tol : Nat
  deriving DecidableEq, Repr

/-- NODE_m of a FIELD_PORT block (R71). -/
def nodeDef (b : Block) (m : Nat) : NodeDef :=
  let v := b.field (12 + m)
  { plca := bits v 0 3, role := bits v 4 2, channel := bits v 8 4, timeout := bits v 16 7, mac := bits v 32 48, tol := bits v 80 16 }

/-- The node of a port with a role, if it has one. -/
def nodeWith (b : Block) (p : NodeDef → Bool) : Option Nat := (List.range 8).find? fun m => p (nodeDef b m)

/-- The port and node that drive a channel (R444). -/
def State.driveOf (s : State) (ch : Nat) : Option (Nat × Nat) :=
  (List.range 4).findSome? fun n => match s.fieldBlock n with
    | some b => (nodeWith b fun d => d.role == 1 && d.channel == ch).map fun m => (n, m)
    | none => none

/-- Change a Field Port. -/
def setFp (n : Nat) (f : FieldPort → FieldPort) (s : State) : State := { s with fp := upd s.fp n f }

/-- A SETPOINT frame of a channel. -/
def FpFrame.isSetpoint (f : FpFrame) (ch : Nat) : Bool := match f with | .setpoint r => r.channel == ch | _ => false

/-- A release enters a port's queue; an earlier one of its channel is superseded (R451). -/
def enqueueRelease (r : Release) (p : FieldPort) : FieldPort :=
  let old := (p.queue.filter (·.isSetpoint r.channel)).length
  { p with queue := p.queue.filter (fun f => !f.isSetpoint r.channel) ++ [.setpoint r], superseded := satAdd 255 p.superseded old }

/-- Every release that waits under BATCH enters its port's queue. -/
def flushBatch (p : FieldPort) : FieldPort := p.batch.foldl (fun p r => enqueueRelease r p) { p with batch := [] }

/-- Channels of the enabled PLANNING_CHANNEL blocks of a job. -/
def Job.channels (j : Job) : List Nat := (j.enabledBlocks.filter (·.serviceType == 0x11)).map (·.field 0)

/-- Hand a release to the channel's port; under BATCH it waits until every channel of the job is released in the cycle. -/
def handRelease (j : Job) (tag : Reg) (r : Release) (s : State) : State :=
  let s := match s.driveOf r.channel with
    | some (n, _) =>
      (match s.fieldBlock n with
       | some b =>
         if b.field 8 == 0 then setFp n (enqueueRelease r) s else setFp n (fun p => { p with batch := p.batch ++ [r] }) s
       | none => s)
    | none => s
  if j.channels.all fun c => (s.chan c).released.contains tag then { s with fp := s.fp.map flushBatch } else s

/-! ## Releases and holds (R220, R221, R359, R360) -/

/-- The cycle of a tag; a tag that names none gives a cycle at zero. -/
def State.cycleOf (s : State) (tag : Reg) : Cycle := (s.cycle? tag).getD { tag := tag, gFire := 0, key := 0 }

/-- The cycle after the latest, estimated at the virtual rate: the plan that a disarm hold starts at when the latest cycle is
already released. -/
def State.nextCycle (s : State) (j : Job) : Cycle :=
  let c := s.cycleOf s.latestTag
  let period := ((j.blockOf 0x10).map (·.field 1)).getD 0
  { tag := c.tag + BitVec.ofNat 32 period, gFire := c.gFire + stopBranchTime s j, key := c.key + BitVec.ofNat 48 period }

/-- Word 0 of a release record. -/
structure ReleaseHead where
  kind : Nat
  channel : Nat
  safe : Bool
  reason : Nat
  cand : Nat
  epoch : Nat
  tag : Reg
  start : LinePos
  gBase : Nat
  deriving DecidableEq, Repr

def ReleaseHead.word (h : ReleaseHead) : Word :=
  Machine.word (at_ h.kind 0 2 ||| at_ h.channel 2 4 ||| at_ (b2n h.safe) 6 1 ||| at_ h.reason 16 16 ||| at_ h.cand 32 32 |||
    at_ h.epoch 64 32 ||| at_ h.tag.toNat 96 32 ||| at_ h.start.toNat 128 48 ||| at_ h.gBase 192 64)

/-- Positions of a joint list at a Global Counter; free values where the Pattern cannot be read. -/
def placeJoints (p : Pattern) (joints : List Joint) (h : List Segment) (at_ : Nat) (s : State) : State × List Int :=
  let r : Requester := { num := 76 }
  let m : Run (List Int) := do
    let pl ← placeAt r p h at_ at_
    getPlace r p joints pl
  match runProg m s with
  | (s, .ok q) => (s, q)
  | (s, .error _) =>
    ({ s with freeCount := s.freeCount + 1 },
     (List.range joints.length).map fun i => signed 16 (((Config.freeValue s.freeCount).toNat >>> (8 * i)) % 65536))

/-- The motions that R351 follows: the stop branch of the newest plan after its T_B. -/
def stopMotions (h : List Segment) : List Segment :=
  match h with
  | ⟨g, .go pl⟩ :: t => ⟨g, .stop pl⟩ :: t
  | h => h

/-- Positions at successive Global Counters, 16 bits each with joint 0 first. -/
def sampleBytes (p : Pattern) (joints : List Joint) (h : List Segment) : List Nat → State → State × List Byte
  | [], s => (s, [])
  | g :: t, s =>
    let (s, q) := placeJoints p joints h g s
    let (s, l) := sampleBytes p joints h t s
    (s, (q.flatMap fun x => toBytes (unsigned 16 x) 2) ++ l)

/-- The payload of a SETPOINT frame (R450). -/
def setpointPayload (j : Job) (h : ReleaseHead) (record : List Word) (hist : List Segment) (s : State) : State × List Byte :=
  match s.pat.active, j.channelBlock h.channel, s.driveOf h.channel with
  | some p, some b, some (n, _) =>
    (match s.fieldBlock n, (runProg (channelJoints { num := 76 } p b) s) with
     | some f, (s, .ok joints) =>
       let step := 1000 * f.field 9
       let moving := h.kind != 3
       let tB := if h.kind == 0 then recTB record else 0
       let tau := if !moving then 0 else if h.kind == 0 then recTau record
         else (match planAt hist h.gBase with | some pl => pl.stopEnd - h.gBase | none => 0)
       let ngo := if h.kind == 0 then ceilDiv tB step + 1 else 1
       let nstop := if tau == 0 then 0 else f.field 10
       let go := (List.range ngo).map fun i => h.gBase + min (i * step) tB
       let stop := (List.range nstop).map fun i => h.gBase + tB + (2 * (i + 1) * tau + nstop) / (2 * nstop)
       let (s, bytes) := sampleBytes p joints (stopMotions hist) (go ++ stop) s
       (s, toBytes h.kind 1 ++ toBytes joints.length 1 ++ toBytes ngo 1 ++ toBytes nstop 1 ++ toBytes tB 4 ++ toBytes step 4 ++
         toBytes tau 4 ++ toBytes h.cand 4 ++ bytes)
     | _, _ => (s, []))
  | _, _, _ => (s, [])

/-- The device writes CH_STATE of a channel: its words are private, undefined to readers (R204). -/
def writeChState (j : Job) (ch : Nat) (s : State) : State :=
  match (j.channelBlock ch).bind fun b => j.bufferSpan (b.field 18) with
  | some sp => writePrivate sp.key (min chStateWords sp.len) s
  | none => s

/-- Make a release: the channel is released in the cycle, and the record goes to its port. -/
def release (j : Job) (h : ReleaseHead) (record : List Word) (held : Bool) (s : State) : State × List Word :=
  let ws := h.word :: record
  let s := writeChState j h.channel s
  let s := setChan h.channel (fun c => { c with released := (h.tag :: c.released).take 64, lastHold := held }) s
  let s : State := if held then
      { s with sm.holdCount := satAdd 4294967295 s.sm.holdCount 1, pse.holds := satAdd 65535 s.pse.holds 1 }
    else s
  let hist := (s.chan h.channel).history
  let (s, payload) := setpointPayload j h record hist s
  let part := ((j.channelBlock h.channel).map (·.field 1)).getD 0
  (handRelease j h.tag ⟨h.channel, ws, payload, hist, part⟩ s, ws)

/-- The position at which the plans of a cycle start (R203). -/
def Job.startOf (j : Job) (c : Cycle) : LinePos := c.key + BitVec.ofNat 48 (((j.blockOf 0x10).map (·.field 1)).getD 0)

/-- The release record of a hold, and what it changes in the channel (R220). -/
def holdRelease (j : Job) (b : Block) (cyc : Cycle) (reason : Nat) (safe : Bool) (s : State) : State × List Word :=
  let ch := b.field 0
  let g := cyc.gFire + 1000 * b.field 11
  let hist := (s.chan ch).history
  let head (kind : Nat) (s : State) : ReleaseHead :=
    { kind := kind, channel := ch, safe := safe || s.smState == 2, reason := reason, cand := 0xFFFFFFFF, epoch := 0, tag := cyc.tag,
      start := j.startOf cyc, gBase := g }
  match kindAt hist g, planAt hist g with
  | .go, some pl =>
    let s := setChan ch (fun c => { c with history := beginMotion g (.stop pl) c.history }) s
    let s := writeEvent { s.event 0x0406 74 with job := j.id, service := b.service, a := ch, b := reason, value := cyc.tag.toNat } s
    release j (head 1 s) pl.record true s
  | .stop, some pl => release j (head 2 s) pl.record true s
  | _, _ => release j (head 3 s) (List.replicate 81 0) true s

/-- The copies of the Seam are compared before a release write; where they differ the cause SELF_CHECK is latched (R361). -/
def compareCopies (s : State) : State := if s.upset == some .seamCopy then copiesDiffer 0xFFF0 s else s

/-- The hold of a channel in a cycle, unless the channel is released in it (R220, R360).  Where the copies of the Seam differ over it the channel is
held all the same (R361). -/
def holdChannel (j : Job) (b : Block) (cyc : Cycle) (reason : Nat) (safe : Bool) (s : State) : State × Option (List Word) :=
  if (s.chan (b.field 0)).released.contains cyc.tag then (s, none)
  else
    let (s, ws) := holdRelease j b cyc reason safe (compareCopies s)
    (s, some ws)

/-- The reason of the hold that a HOLD item releases: that of the cycle's failed item; a cycle without one leaves it open. -/
def holdReasonOf (ch : Nat) (tag : Reg) (s : State) : State × Nat :=
  match (s.chan ch).holdReason with
  | some (t, r) => if t == tag then (s, r.toNat) else (drawReason s)
  | none => drawReason s
where
  /-- A free 16-bit value. -/
  drawReason (s : State) : State × Nat := ({ s with freeCount := s.freeCount + 1 }, (Config.freeValue s.freeCount).toNat % 65536)

/-- Write a release record where OPERAND3 of the item is used. -/
def writeRelease (j : Job) (it : Item) (ws : List Word) (s : State) : State × Nat := writeOut j it 3 0 (clean ws) s

/-- HOLD on its item (R360). -/
def holdItem (it : Item) (j : Job) (s : State) : State × Option Result :=
  match j.itemChannel it with
  | none => (s, some (done))
  | some b =>
    if (s.chan (b.field 0)).released.contains it.tag then (s, some (done))
    else
      let (s, reason) := holdReasonOf (b.field 0) it.tag s
      match holdChannel j b (s.cycleOf it.tag) reason false s with
      | (s, some ws) =>
        ((writeRelease j it ws s).1, some (done))
      | (s, none) => (s, some (done))

/-! ## The walk over candidates (R357, R358) -/

/-- How the walk ended. -/
inductive WalkEnd where
  /-- stitched: the trajectory record -/
  | stitched (record : List Word)
  /-- DISAGREE with a reason, at a row of R358 or 0 for R357 -/
  | disagree (reason row : Nat)
  | noPath (reason : Nat)
  | atGoal
  /-- the kept list fails a check (R83) -/
  | refused (reason : Nat)
  deriving DecidableEq, Repr

/-- The walk: candidates examined and dropped so far. -/
structure Walk where
  examined : Nat := 0
  dropped : Nat := 0
  deriving DecidableEq, Repr

/-- The outcome of the re-read of one candidate: every edge clear, an edge blocked, a word with the poison mark. -/
structure Reread where
  blocked : Bool := false
  bad : Bool := false
  deriving DecidableEq, Repr

/-- The windows of an edge in Global Counter, go and stop; an open STOP_OUT reaches every later slice. -/
def Window.spans (w : Window) (g : Nat) : List (Nat × Nat) :=
  (g + w.goIn, g + w.goOut) ::
    (if w.stopIn == openTime then [] else [(g + w.stopIn, if w.stopOut == openTime then openEnd else g + w.stopOut)])

/-- Re-read the edges of a record at an epoch (R218 step 2). -/
def reread (r : Requester) (c : OccCtx) (e : Epoch) (g : Nat) : List Window → Reread → State → State × Reread
  | [], o, s => (s, o)
  | w :: t, o, s =>
    let (s, x) := askRecord r w.edge s
    match x with
    | none => reread r c e g t { o with bad := true } s
    | some rec_ =>
      let ok := (w.spans g).all fun (a, b) => recordClear s c e rec_ a b
      reread r c e g t { o with blocked := o.blocked || !ok } s

/-- Count a candidate dropped at rows 2 and 3, or at row 6. -/
def countDropEarly (atReread : Bool) (s : State) : State :=
  { s with sm.dropsEarly := satAdd 65535 s.sm.dropsEarly 1, pse.dropped := satAdd 65535 s.pse.dropped (b2n atReread) }

def countDropLate (s : State) : State := { s with sm.dropsLate := satAdd 65535 s.sm.dropsLate 1 }

/-- Row 5 of R358 for a kept record's CAND_ID, a trajectory record and a verdict. -/
def identityDiffers (cand : Nat) (r : List Word) (v : Nat) : Bool :=
  cand != recField r 32 32 || bits v 32 32 != recField r 32 32 || bits v 64 32 != recField r 64 32 ||
    bits v 128 32 != recField r 224 32 || bits v 224 32 != recField r 192 32

/-- What the rows of R358 say of a candidate: the walk ends, the candidate is dropped, or its re-read waits. -/
inductive Judgement where
  | ends (o : WalkEnd)
  | dropped
  | waits
  deriving DecidableEq, Repr

/-- Rows 3 to 8 of R358 for a candidate at the epoch of the open gate; `v` is its verdict record. -/
def judgeAt (r : Requester) (c : OccCtx) (e : Epoch) (g cand : Nat) (rec_ : List Word) (v : Nat) (s : State) : State × Judgement :=
  let (s, o) := reread r c e g (recWindows rec_) {} s
  if o.blocked then (countDropEarly true s, .dropped)
  else if o.bad then (s, .ends (.disagree 0x0902 4))
  else if identityDiffers cand rec_ v then (s, .ends (.disagree 0x0901 5))
  else if bits v 0 2 == 2 || bits v 0 2 == 3 || e.number.toNat != recField rec_ 64 32 then (countDropLate s, .dropped)
  else if bits v 0 2 == 1 then (s, .ends (.disagree 0x0901 7))
  else if bits v 96 32 != e.number.toNat then (countDropLate s, .dropped)
  else (s, .ends (.stitched rec_))

/-- The re-read of a candidate and the rows behind it, once a read gate is open (R218) and no bank that it reads is under test (R371). -/
def judgeOpen (r : Requester) (g cand : Nat) (rec_ : List Word) (v : Nat) (s : State) : State × Judgement :=
  match s.openGate, s.occCtx with
  | some e, some c => untested .waits (judgeAt r c e g cand rec_ v) s
  | _, _ => (s, .waits)

/-- The rows of R358 for one candidate. -/
def judge (r : Requester) (g cand : Nat) (traj : List Got) (v : Got) (s : State) : State × Judgement :=
  if anyBad traj || v.bad then (s, .ends (.disagree 0x0902 1))
  else if recField (gotData traj) 0 1 == 0 then (countDropEarly false s, .dropped)
  else judgeOpen r g cand (gotData traj) v.data.toNat s

/-- The spans that the walk reads: EASE records and verdicts. -/
structure WalkOps where
  records : Span
  verdicts : Span
  deriving DecidableEq, Repr

/-- The walk over candidates, given as position and CAND_ID; none where it waits, with what it waits with held (R218). -/
def walkCandidates (it : Item) (g : Nat) (ops : WalkOps) : List (Nat × Nat) → Walk → State → State × Option (Walk × WalkEnd)
  | [], w, s => (s, some (w, .noPath 0x0402))
  | (i, cand) :: t, w, s =>
    let r := it.requester
    let w : Walk := { w with examined := w.examined + 1 }
    let (s, traj) := readWords r (ops.records.key + easeWords * i) 81 s
    let (s, v) := readWord r (ops.verdicts.key + i) s
    match judge r g cand traj v s with
    | (s, .ends o) => (s, some (w, o))
    | (s, .dropped) => walkCandidates it g ops t { w with dropped := w.dropped + 1 } s
    | (s, .waits) =>
      ({ s with sm.walk := some { item := it.id, examined := w.examined, dropped := w.dropped, left := (i, cand) :: t,
                                  record := gotData traj, verdict := v.data } }, none)

/-- A walk that waits goes on with the re-read of the candidate that it waits at. -/
def resumeWalk (it : Item) (g : Nat) (ops : WalkOps) (x : WaitingWalk) (s : State) : State × Option (Walk × WalkEnd) :=
  match x.left with
  | [] => (s, some (⟨x.examined, x.dropped⟩, .noPath 0x0402))
  | (_, cand) :: t =>
    match judgeOpen it.requester g cand x.record x.verdict.toNat s with
    | (s, .ends o) => ({ s with sm.walk := none }, some (⟨x.examined, x.dropped⟩, o))
    | (s, .dropped) => walkCandidates it g ops t ⟨x.examined, x.dropped + 1⟩ { s with sm.walk := none }
    | (s, .waits) => (s, none)

/-- Positions and CAND_IDs of a kept list, in ascending COST and then CAND_ID (R213). -/
def keptOrder (ws : List Word) (count : Nat) : List (Nat × Nat) :=
  let recs := (List.range count).map fun i =>
    let h := (nth ws (1 + 10 * i) 0).toNat
    (i, bits h 0 32, bits h 64 32)
  (sortBy (fun a b => if a.2.2 != b.2.2 then a.2.2 < b.2.2 else a.2.1 < b.2.1) recs).map fun x => (x.1, x.2.1)

/-! ## STITCH (R219, R357 to R360, R365) -/

/-- A STITCH completes DISAGREE: counted, alarmed and entered in its channel's window; at the limit the cause is latched, and the Safe-Hold that it
enters finds this STITCH complete (R364, R365). -/
def noteDisagree (id : Nat) (b : Block) (tag : Reg) (reason row : Nat) (r : Result) (s : State) : State :=
  let ch := b.field 0
  let s := setResult id r s
  let s := raiseAlarm reason ch row s
  let s : State := if reason == 0x0901 then { s with sm.walks0901 := satAdd 65535 s.sm.walks0901 1 }
    else { s with sm.walks0902 := satAdd 65535 s.sm.walks0902 1 }
  let s := { s with sm.lastDisagree := BitVec.ofNat 32 (ch + at_ row 4 4 + at_ tag.toNat 16 16) }
  let age := (firstIndex (fun (c : Cycle) => c.tag == tag) s.shu.cycles 0).getD 0
  let s := setChan ch (fun c => { c with disagreeAt := (s.shu.firings - age) :: c.disagreeAt }) s
  let window := s.devField 7 5 1000
  let recent := ((s.chan ch).disagreeAt.filter fun f => s.shu.firings < f + window).length
  if s.devField 7 4 2 ≤ recent then latchCause 4 reason s else s

/-- The copies of the Seam differ over a release: its write is suppressed, the channel is held instead, and the STITCH ends as Safe-Hold ends it
(R361, R364). -/
def suppressed (it : Item) (j : Job) (b : Block) (s : State) : State × Result :=
  ((holdChannel j b (s.cycleOf it.tag) 0x0904 true s).1, done .aborted 0x0208)

/-- What a STITCH does once its walk has ended. -/
def finishStitch (it : Item) (j : Job) (b : Block) (w : Walk) (o : WalkEnd) (s : State) : State × Result :=
  let ch := b.field 0
  let cyc := s.cycleOf it.tag
  let g := s.gBaseOf b it.tag
  let start := j.startOf cyc
  match o with
  | .disagree reason row =>
    let r := done .disagree reason w.examined w.dropped
    (noteDisagree it.id b it.tag reason row r (noteReason ch it.tag reason s), r)
  | .noPath reason => (noteReason ch it.tag reason s, done .noFreshPath reason w.examined w.dropped)
  | .refused reason => (noteReason ch it.tag reason s, done .refused reason)
  | .atGoal =>
    if s.upset == some .seamCopy then suppressed it j b s else
    let head : ReleaseHead :=
      { kind := 3, channel := ch, safe := false, reason := 0, cand := 0xFFFFFFFF, epoch := 0, tag := it.tag, start := start, gBase := g }
    let (s, ws) := release j head (List.replicate 81 0) false s
    let (s, d) := writeRelease j it ws s
    (s, done .ok 0 w.examined w.dropped d)
  | .stitched rec_ =>
    if s.upset == some .seamCopy then suppressed it j b s else
    let head : ReleaseHead :=
      { kind := 0, channel := ch, safe := false, reason := 0, cand := recField rec_ 32 32, epoch := recField rec_ 64 32, tag := it.tag,
        start := start, gBase := g }
    let sigma0 (s : State) : Nat := match s.pat.active with
      | some p => (match (runProg (startState it.requester p (s.chan ch).history g) s).2 with
        | .ok st => (match st.rest with | some (sg, _) => sg | none => 0)
        | .error _ => 0)
      | none => 0
    let pl : Plan := { record := rec_, gBase := g, start := start, tag := it.tag, sigma0 := sigma0 s }
    let s := setChan ch (fun c => { c with history := beginMotion g (.go pl) c.history }) s
    let (s, ws) := release j head rec_ false { s with sm.stitches := satAdd 4294967295 s.sm.stitches 1 }
    let (s, d) := writeRelease j it ws s
    (s, done .ok 0 w.examined w.dropped d)

/-- The words of a kept list: its header, then the records of the larger of the block's K and the header's COUNT. -/
def readKept (r : Requester) (k : Nat) (list : Span) (s : State) : State × List Got :=
  let (s, g) := readWord r list.key s
  let (s, gs) := readWords r (list.key + 1) (min (listWords (max k (if g.bad then 0 else Word.get g.data 32 5))) list.len - 1) s
  (s, g :: gs)

/-- A kept list's COUNT fits the list itself, the EASE records of OPERAND1 and the verdicts of OPERAND2 (R83, R357). -/
def stitchCount (h : Nat) (list : Span) (ops : WalkOps) : Check Unit := do
  keptCount h list.len
  need (easeWords * bits h 32 5 ≤ ops.records.len && bits h 32 5 ≤ ops.verdicts.len) 0x0101

/-- The walk of a STITCH from its kept list on; none while it waits for a read gate (R218) or for the end of a slice on the Tracer (R371). -/
def startWalk (it : Item) (b : Block) (list : Span) (ops : WalkOps) (s : State) : State × Option (Walk × WalkEnd) :=
  let r := it.requester
  let (s, gs) := readKept r (b.field 7) list s
  let ws := gotData gs
  let h := (nth ws 0 0).toNat
  let count := bits h 32 5
  if anyBad gs then (s, some ({}, .disagree 0x0902 0))
  else match stitchCount h list ops with
  | .error f => (s, some ({}, .refused f.reason))
  | .ok _ =>
  if s.tks.disagreed.contains list.key then (s, some ({}, .disagree 0x0901 0))
  else if bits h 37 3 == 5 then (s, some ({}, .atGoal))
  else if count == 0 then (s, some ({}, .noPath (if bits h 37 3 == 3 then 0x0402 else 0x0401)))
  else walkCandidates it (s.gBaseOf b it.tag) ops (keptOrder ws count) {} s

/-- The walk of a STITCH, or what is left of one that waits. -/
def stitchWalk (it : Item) (b : Block) (list : Span) (ops : WalkOps) (s : State) : State × Option (Walk × WalkEnd) :=
  match s.sm.walk.filter (·.item == it.id) with
  | some x => resumeWalk it (s.gBaseOf b it.tag) ops x s
  | none => startWalk it b list ops s

/-- STITCH on its item. -/
def stitchItem (it : Item) (j : Job) (s : State) : State × Option Result :=
  match j.itemChannel it, j.operandSpan it.entry 0, j.operandSpan it.entry 1, j.operandSpan it.entry 2 with
  | some b, some list, some recs, some vers =>
    let ch := b.field 0
    if s.smState == 2 then (noteReason ch it.tag 0x0906 s, some (done .refused 0x0906))
    else if (s.chan ch).released.contains it.tag then (s, some (done .refused 0x0114 3))
    else if (s.cycleOf it.tag).gFire + 1000 * b.field 12 ≤ s.now then (noteReason ch it.tag 0x0206 s, some (done .aborted 0x0206))
    else match stitchWalk it b list ⟨recs, vers⟩ s with
      | (s, some (w, o)) =>
        let (s, r) := finishStitch it j b w o s
        (s, some r)
      | (s, none) => (s, none)
  | _, _, _, _ => (s, some (done .refused 0x0105))

end Sys2Proof.Machine
end

