-- ==== Sys2Proof/Machine/Line.lean ====
section
/-!
DEFINITION. The Line Timer (file 02): line positions, encoder inputs, line state, the virtual position, references, delay-list
entries, SYNC and line messages.  The firing pass of a Line Tick is in Machine/Cycle.lean.
-/

namespace Sys2Proof.Machine

open Sys2Proof

/-! ## The LINE block (R61) -/

/-- The LINE block in force. -/
def State.lineBlock (s : State) : Option Block := s.devBlock 0

/-- A field of the LINE block, or the given value while none is in force. -/
def State.lineField (s : State) (f absent : Nat) : Nat := s.devField 0 f absent

/-- C, counts per machine cycle; 0 while no block is in force. -/
def State.encCounts (s : State) : Nat := s.lineField 0 0

/-- LINE_ROLE (R55). -/
def State.role (s : State) : LineRole :=
  match s.lineField 12 0 with
  | 1 => .master
  | 2 => .follower
  | _ => .single

/-- ENC1_MODE: 0 OFF, 1 REDUNDANT, 2 CAPTURE (R41). -/
def State.enc1Mode (s : State) : Nat := s.lineField 6 0

/-- LINE_TICK in LU. -/
def State.lineTickLu (s : State) : Nat := s.lineField 11 16

/-- A delay list is keyed to V (R61). -/
def State.listOnV (s : State) (n : Nat) : Bool := s.lineField (15 + n) 0 == 1

/-- The position of a delay list. -/
def State.listPos (s : State) (n : Nat) : LinePos := if s.listOnV n then s.line.v else s.line.m

/-! ## Positions (R31 to R33) -/

/-- 2^47, half of the position range. -/
def halfRange : Nat := 140737488355328

/-- The distance d of R33. -/
def keyDistance (key p : LinePos) : Nat := (key - p).toNat

/-- A key is due (R33). -/
def keyDue (key p : LinePos) : Bool := keyDistance key p == 0 || halfRange ≤ keyDistance key p

/-- A key is ahead (R33). -/
def keyAhead (key p : LinePos) : Bool := 1 ≤ keyDistance key p && keyDistance key p < halfRange

/-- Does a move pass or reach a multiple of LINE_TICK (R48)? -/
def crossesTick (tick : Nat) (old new : LinePos) : Bool := old != new && old.toNat / tick != new.toNat / tick

/-- Set M and V, and mark the lists whose position has come to a tick; `force` marks the lists keyed to M (R39, R48). -/
def moveTo (m v : LinePos) (force : Bool) (s : State) : State :=
  let t := s.lineTickLu
  let due := (List.range 4).map fun n =>
    nth s.line.tickDue n false ||
      (if s.listOnV n then crossesTick t s.line.v v else force || crossesTick t s.line.m m)
  { s with line.m := m, line.v := v, line.tickDue := due }

/-- Set the positions of the encoder side.  On a MASTER they reach M and V with the sample (R58); otherwise at once. -/
def moveGen (m v : LinePos) (force : Bool) (s : State) : State :=
  let s := { s with line.genM := m, line.genV := v }
  match s.role with
  | .master => s
  | .single | .follower => moveTo m v force s

/-- The position K:floor(n × 65,536 / C) (R37, R45). -/
def positionOf (cycle n c : Nat) : LinePos := BitVec.ofNat 48 (cycle * 65536 + n * 65536 / c)

/-! ## Loss of the line (R41, R42) -/

/-- One encoder input. -/
def Line.input (l : Line) (i : Nat) : EncInput := if i == 0 then l.enc0 else l.enc1

/-- Change one encoder input. -/
def setInput (i : Nat) (f : EncInput → EncInput) (s : State) : State :=
  if i == 0 then { s with line.enc0 := f s.line.enc0 } else { s with line.enc1 := f s.line.enc1 }

/-- The input that counts. -/
def State.source (s : State) : Nat := if s.line.source1 then 1 else 0

/-- Enter LOST; the reason is kept where the line is LOST already (LOSS_REASON of LT_STATUS). -/
def enterLost (reason : Nat) (s : State) : State :=
  if s.line.state == .lost then s
  else { s with line.state := .lost, line.lossReason := BitVec.ofNat 16 reason, line.remoteLost := false }

/-- A loss condition of an encoder input: its alarm, the other input where R41 allows it, or LOST.  The other input counts on from the same
count n, with the reverse counter and the Z count of its own. -/
def inputLoss (i reason : Nat) (s : State) : State :=
  let s := raiseAlarm reason 0 0 s
  if s.enc1Mode == 1 then
    let s := setInput i (fun e => { e with lost := true }) s
    if s.line.enc0.lost && s.line.enc1.lost then enterLost reason s
    else if i == s.source then
      let other := if i == 0 then 1 else 0
      let cur := s.line.input i
      let s := setInput other (fun e => { e with n := cur.n }) s
      { s with line.source1 := other == 1 }
    else s
  else enterLost reason s

/-! ## Counts (R36 to R40) -/

/-- Step of the quadrature code from one level pair to another: +1 forward, −1 reverse, 0 none, 2 illegal (R36). -/
def quadrature (a b a' b' : Bool) : Int :=
  if a == a' && b == b' then 0
  else if a != a' && b != b' then 2
  else match a, b, a', b' with
    | false, false, true, false => 1
    | true, false, true, true => 1
    | true, true, false, true => 1
    | false, true, false, false => 1
    | _, _, _, _ => -1

/-- Advance n by e on an input, with cycle carry; M follows the counting input and never moves backwards (R32, R37, R39). -/
def advanceCount (i e : Nat) (force : Bool) (s : State) : State :=
  let c := s.encCounts
  let cur := s.line.input i
  let cycle := s.line.genM.toNat / 65536 + (cur.n + e) / c
  let n := (cur.n + e) % c
  let s := setInput i (fun x => { x with n := n }) s
  if i != s.source || s.line.state == .lost then s
  else
    let m := positionOf cycle n c
    if !keyAhead m s.line.genM then s
    else
      let d := keyDistance m s.line.genM
      let s := { s with line.sinceStep := s.line.sinceStep + d, line.sinceEval := s.line.sinceEval + d, line.genTick := s.line.genTick || force }
      moveGen m s.line.genV force s

/-- Forward counts of the last 1 µs (R40). -/
def State.recentForward (s : State) : List Nat := s.line.forwardTimes.filter fun t => s.now < t + 1000

/-- The overspeed condition of R40. -/
def State.overspeeding (s : State) : Bool := s.lineField 5 4 < s.recentForward.length

/-- Note a forward count for R40. -/
def noteForward (s : State) : State :=
  let s := { s with line.forwardTimes := s.now :: s.recentForward }
  if s.overspeeding && !s.line.overspeed then raiseAlarm 0x0B46 0 0 { s with line.overspeed := true } else s

/-- A forward count of an input (R37, R38, R39).  0x0B43 is one event of a count that goes on until an accepted Z or a reference (R42).  The count of
R39 also runs while Z is not enabled, so that a later block with the same ENC_COUNTS that enables Z finds it standing (DESIGN CHOICE, log 82). -/
def forwardCount (i : Nat) (s : State) : State :=
  let s := if i == s.source then noteForward s else s
  let cur := s.line.input i
  let s := setInput i (fun x => { x with forward := x.forward + 1 }) s
  if cur.rho > 0 then setInput i (fun x => { x with rho := x.rho - 1 }) s
  else if s.line.state == .lost then s
  else
    let s := setInput i (fun x => { x with sinceZ := x.sinceZ + 1 }) s
    let s := advanceCount i 1 false s
    if s.lineField 2 0 == 1 && cur.sinceZ + 1 > s.encCounts + s.lineField 4 4 && !cur.zMissing then
      inputLoss i 0x0B43 (setInput i (fun x => { x with zMissing := true }) s)
    else s

/-- The reverse limit of R38. -/
def reverseLimit : Nat := 16777216

/-- A reverse count of an input (R38). -/
def reverseCount (i : Nat) (s : State) : State :=
  let before := (s.line.input i).rho
  let s := setInput i (fun x => { x with rho := x.rho + 1 }) s
  if before < reverseLimit && reverseLimit ≤ before + 1 then inputLoss i 0x0B44 s else s

/-- An illegal transition (R36, R42). -/
def illegalTransition (i : Nat) (s : State) : State :=
  let w := s.now / 1000000
  let cur := s.line.input i
  let k := if cur.illegalWindow == w then cur.illegalCount + 1 else 1
  let s := setInput i (fun x => { x with illegalWindow := w, illegalCount := k }) s
  let s := { s with line.illegal := satAdd 65535 s.line.illegal 1 }
  if k == 4 then inputLoss i 0x0B41 s else s

/-- Is an input decoded (R41, R55)? -/
def State.decodes (s : State) (i : Nat) : Bool :=
  s.lineBlock.isSome && s.role != .follower && (i == 0 || s.enc1Mode == 1)

/-- Accepted levels of A and B (R36).  Levels that arrive while the input is not decoded are dropped, and decoding goes on from the pair held
before (DESIGN CHOICE, log 59). -/
def encoderLevels (i : Nat) (a b : Bool) (s : State) : State :=
  if !s.decodes i then s
  else
    let cur := s.line.input i
    let s := setInput i (fun x => { x with levelA := a, levelB := b }) s
    match quadrature cur.levelA cur.levelB a b with
    | 0 => s
    | 1 => forwardCount i s
    | 2 => illegalTransition i s
    | _ => reverseCount i s

/-- e of R39 in the range (−C/2, C/2]. -/
def zError (offset n c : Nat) : Int :=
  let e := (offset + c - n) % c
  if 2 * e ≤ c then (e : Int) else (e : Int) - (c : Int)

/-- An accepted rising edge of Z (R39). -/
def zEdge (i : Nat) (s : State) : State :=
  let cur := s.line.input i
  if !s.decodes i || s.lineField 2 0 != 1 || cur.rho > 0 || s.line.state == .lost then s
  else
    let tol : Int := s.lineField 4 4
    let e := zError (s.lineField 3 0) cur.n s.encCounts
    if e > tol || e < -tol then inputLoss i 0x0B42 s
    else
      let s := setInput i (fun x => { x with sinceZ := 0, zMissing := false }) s
      if e == 0 then s
      else
        let s := { s with line.zCorrections := satAdd 255 s.line.zCorrections 1 }
        if e > 0 then advanceCount i e.toNat true s
        else setInput i (fun x => { x with rho := x.rho + (-e).toNat }) s

/-- ENCn_FLT_N low after its filter (R35, R42). -/
def faultInput (i : Nat) (s : State) : State :=
  let s := setInput i (fun x => { x with faultLow := true }) s
  if s.decodes i then inputLoss i 0x0B40 s else s

/-! ## Line state and virtual position (R43, R44) -/

/-- The evaluation of the line state at a multiple of 100 µs (R43); a follower takes its state from the samples. -/
def evaluateLine (s : State) : State :=
  let w := s.line.sinceEval :: s.line.window
  let w := w.take (s.lineField 8 20)
  let a := w.foldl (· + ·) 0
  let s := { s with line.window := w, line.sinceEval := 0 }
  if s.line.state == .lost || s.role == .follower then s
  else { s with line.state := if s.lineField 9 1 ≤ a then .running else .stopped }

/-- Does the device step V by R44 itself?  A follower does while it is LOST of its own accord; otherwise V comes with the samples (R58, R59). -/
def State.generates (s : State) : Bool := s.role != .follower || (s.line.state == .lost && !s.line.remoteLost)

/-- The step of V at a multiple of 1 µs (R44). -/
def stepVirtual (s : State) : State :=
  if !s.generates then { s with line.generator := false, line.sinceStep := 0 }
  else
    let rate := s.lineField 10 0
    if s.line.state == .running then
      let v := s.line.genV + BitVec.ofNat 48 s.line.sinceStep
      moveGen s.line.genM v false { s with line.fraction := 0, line.sinceStep := 0, line.generator := false }
    else if rate > 0 then
      let f := s.line.fraction + rate
      let v := s.line.genV + BitVec.ofNat 48 (f / 1000)
      moveGen s.line.genM v false { s with line.fraction := f % 1000, line.sinceStep := 0, line.generator := true }
    else { s with line.sinceStep := 0, line.generator := false }

/-! ## Delay-list entries (R47 to R51) -/

/-- A delay-list entry as the operand of DELAY_INSERT gives it (R47). -/
structure DelayWord where
  key : LinePos
  period : Nat
  action : Nat
  reserved : Nat
  syncObj : Nat
  tag : Reg
  deriving DecidableEq, Repr

/-- The entry in the low 16 bytes of a word. -/
def delayWord (w : Word) : DelayWord :=
  let n := w.toNat
  { key := BitVec.ofNat 48 (bits n 0 48), period := bits n 48 24, action := bits n 72 2, reserved := bits n 74 6,
    syncObj := bits n 80 16, tag := BitVec.ofNat 32 (bits n 96 32) }

/-- Entries of a delay list. -/
def State.delayList (s : State) (n : Nat) : List DelayEntry := nth s.line.lists n []

/-- The tests of R49, in the order of its table. -/
def delayTests (s : State) (n : Nat) (d : DelayWord) : Check Unit := do
  let dist := keyDistance d.key (s.listPos n)
  need (d.period != 0xFFFFFF) 0x0107
  need (d.action < 2 && d.reserved == 0) 0x0105
  need (d.period == 0 || 2 * s.lineTickLu ≤ d.period) 0x0222
  need (d.action != 0 || s.shu.syncs.any (·.obj == d.syncObj)) 0x0204
  need (!(2147483648 < dist && dist < halfRange)) 0x0221
  need (!(s.delayList n).any (·.tag == d.tag)) 0x0223
  need ((s.delayList n).length < 1024) 0x0220

/-- Append an entry to a list; a key that is due fires LATE at the next tick (R49). -/
def appendDelay (n : Nat) (d : DelayWord) (owner : ServiceRef) (s : State) : State :=
  let e : DelayEntry :=
    { key := d.key, period := BitVec.ofNat 24 d.period, event := d.action == 1, syncObj := d.syncObj, tag := d.tag,
      late := keyDue d.key (s.listPos n), owner := owner }
  { s with line.lists := upd s.line.lists n (· ++ [e]) }

/-- An insertion (R49). -/
def insertDelay (n : Nat) (d : DelayWord) (owner : ServiceRef) (s : State) : Check State :=
  match delayTests s n d with
  | .ok _ => .ok (appendDelay n d owner s)
  | .error e => .error e

/-- Remove the entry with a TAG without firing it (R51, R52). -/
def cancelDelay (n : Nat) (tag : Reg) (s : State) : Check State :=
  if (s.delayList n).any (·.tag == tag) then
    .ok { s with line.lists := upd s.line.lists n (·.filter (·.tag != tag)) }
  else refuse 0x0224

/-- The JOB_ID that a service reference names. -/
def State.refJob (s : State) (r : ServiceRef) : BitVec 16 :=
  match r.slot with
  | some i => (match s.jobIn i with | some j => j.id | none => 0xFFFF)
  | none => 0xFFFF

/-- Remove the entries of every list that a test selects; each completes ABORTED with a reason (R45, R67). -/
def abortDelays (p : Nat → DelayEntry → Bool) (reason : Nat) (s : State) : State :=
  (List.range 4).foldl (fun s n =>
    let gone := (s.delayList n).filter (p n)
    let s := { s with line.lists := upd s.line.lists n (·.filter fun e => !p n e) }
    gone.foldl (fun s e =>
      writeCompletion { status := .aborted, reason := reason, job := s.refJob e.owner, service := e.owner.service } s) s) s

/-- The first position ahead of P whose remainder modulo a period, taken of the whole 48-bit position, is given (R17, R337).  Past the end of the
range the positions count from 0 again (R31). -/
def nextPosition (p : LinePos) (period phase : Nat) : LinePos :=
  let d := (phase + period - p.toNat % period) % period
  let next := p.toNat + (if d == 0 then period else d)
  if next < 2 ^ 48 then BitVec.ofNat 48 next else BitVec.ofNat 48 (phase % period)

/-- The tag under which a service of a job holds its own periodic entry (assumption log 11). -/
def serviceTag (serviceType : Nat) : Reg := BitVec.ofNat 32 (0xFFFF0000 + serviceType)

/-- The release entry of the sheet loop, inserted ahead of M (R337). -/
def insertRelease (slot : Nat) (b : Block) (s : State) : State :=
  let n := b.field 1
  appendDelay n { key := nextPosition s.line.m 65536 (b.field 3), period := 65536, action := 0, reserved := 0,
                  syncObj := b.field 8, tag := serviceTag 0x14 } ⟨some slot, b.service⟩ s

/-! ## References (R45, R59) -/

/-- A jump of M from old to new: entries keyed to M strictly between are skipped (R45). -/
def skipEntries (old new : LinePos) (s : State) : State :=
  let span := keyDistance new old
  let hit (n : Nat) (e : DelayEntry) : Bool :=
    !s.listOnV n && 0 < keyDistance e.key old && keyDistance e.key old < span
  let released := s.line.lists.any fun l => l.any fun e => e.tag == serviceTag 0x14
  let s := abortDelays hit 0x0225 s
  let still := s.line.lists.any fun l => l.any fun e => e.tag == serviceTag 0x14
  match s.activeJob with
  | some (slot, j) =>
    (match j.sheetBlock with
     | some b => if released && !still then insertRelease slot b { s with line.m := new } else s
     | none => s)
  | none => s

/-- The counters that a reference starts anew (R39, R41, R43).  What M has advanced since the last step of V stays: R44 leaves out the jump alone. -/
def referenceCounters (n0 : Nat) (s : State) : State :=
  let fresh (e : EncInput) : EncInput :=
    { e with n := n0, rho := 0, forward := 0, sinceZ := 0, zMissing := false, lost := e.faultLow && s.enc1Mode == 1 }
  let s := { s with line.enc0 := fresh s.line.enc0, line.enc1 := fresh s.line.enc1 }
  { s with line.source1 := s.enc1Mode == 1 && s.line.enc0.faultLow, line.window := [], line.sinceEval := 0 }

/-- LINE_REFERENCE with cycle K and count n0 (R45, R59).  An accepted reference makes the line STOPPED, and moves M at once, whatever the state and
the role; R43 says the first for a reference that leaves LOST, and R58 moves M of a MASTER with its samples (DESIGN CHOICE, log 60). -/
def lineReference (k n0 : Nat) (s : State) : Check State :=
  match s.role with
  | .follower => do
    need (k == 0 && n0 == 0) 0x0105
    .ok { s with line.adopt := true }
  | .single | .master => do
    need (n0 < s.encCounts) 0x0105
    need (!(s.line.enc0.faultLow && (s.enc1Mode != 1 || s.line.enc1.faultLow))) 0x0B40
    let new := positionOf k n0 s.encCounts
    need (!keyAhead s.line.genM new) 0x0B48
    let s1 := skipEntries s.line.m new s
    let s2 := referenceCounters n0 { s1 with line.state := .stopped, line.genM := new }
    let v := s2.line.v
    .ok (moveTo new v false { s2 with line.m := s.line.m })

/-! ## Line messages (R58 to R60, R465) -/

/-- The line state of an applied sample on a follower.  The message carries no reason for LOST, so a line that becomes LOST with it takes a free
LOSS_REASON (log 27). -/
def takeLineState (st : LineState) (s : State) : State :=
  let s : State := if st == .lost && !(s.line.state == .lost && s.line.remoteLost) then
      { s with line.lossReason := (Config.freeValue s.freeCount).setWidth 16, freeCount := s.freeCount + 1 }
    else s
  { s with line.state := st, line.remoteLost := st == .lost }

/-- Apply a sample (R58, R59).  R39 counts a Z correction as a Line Tick; the line message has no bit for it (R465), so that the tick is forced on the
MASTER alone, and a follower ticks with the same sample where it crosses a multiple of LINE_TICK (DESIGN CHOICE, log 83). -/
def applySample (x : LineSample) (s : State) : State :=
  let s := { s with line.lastApplied := s.now, line.lastSample := x.g }
  match s.role with
  | .single => s
  | .master =>
    let m := if keyAhead x.m s.line.m then x.m else s.line.m
    let v := if keyAhead x.v s.line.v then x.v else s.line.v
    moveTo m v x.tick s
  | .follower =>
    let s := { s with line.remoteReverse := x.reverse }
    if s.line.adopt then
      let own := keyAhead s.line.v x.v
      let m := if keyAhead x.m s.line.m then x.m else s.line.m
      let v := if own then s.line.v else x.v
      let s1 := skipEntries s.line.m m s
      let s2 := { s1 with line.m := s.line.m, line.adopt := false, line.holdV := own, line.genM := m, line.genV := v }
      moveTo m v false (takeLineState x.st s2)
    else if s.line.state == .lost && !s.line.remoteLost then s
    else
      let m := if keyAhead x.m s.line.m then x.m else s.line.m
      let v := if keyAhead x.v s.line.v then x.v else s.line.v
      moveTo m v false (takeLineState x.st
        { s with line.holdV := s.line.holdV && !keyAhead x.v s.line.v, line.genM := m, line.genV := v })

/-- DIST_DELAY in ns. -/
def State.distDelay (s : State) : Nat := 1000 * s.lineField 13 2

/-- The samples whose application time has come, and the others (R58). -/
def State.dueSamples (s : State) : List LineSample × List LineSample :=
  (s.line.samples.filter fun x => x.g + s.distDelay ≤ s.now, s.line.samples.filter fun x => s.now < x.g + s.distDelay)

/-- Apply the latest sample that is due; a later sample supersedes missed ones (R58), whose Z corrections count as Line Ticks with it. -/
def applyDueSample (s : State) : State :=
  let (due, rest) := s.dueSamples
  match minBy (fun a b => a.g > b.g) due with
  | some x => applySample { x with tick := due.any (·.tick) } { s with line.samples := rest }
  | none => s

/-- A LINE message from a master at a board position (R58, R60, R465).  R60 speaks of a MASTER and of a follower; a SINGLE device ignores the
message (DESIGN CHOICE, log 61).  A master once heard counts as one of two masters until the next wake (DESIGN CHOICE, log 84). -/
def receiveLine (pos : Nat) (x : LineSample) (s : State) : State :=
  match s.role with
  | .single => s
  | .master => raiseAlarm 0x0B4B 0 0 s
  | .follower =>
    let (s, follow) := match s.line.masterPos with
      | none => ({ s with line.masterPos := some pos }, true)
      | some p =>
        if p == pos then (s, true)
        else (raiseAlarm 0x0B4B 0 0 { s with line.masterPos := some (min p pos) }, pos < p)
    if !follow then s
    else if x.g + s.distDelay < s.now then
      let s := raiseAlarm 0x0B4A 0 0 { s with line.lateMessages := satAdd 65535 s.line.lateMessages 1 }
      if x.g < s.line.lastSample then s else applySample x s
    else { s with line.samples := s.line.samples ++ [x] }

/-! ## SYNC (R56) -/

/-- A falling edge of SYNC: the value armed last is loaded, and every armed command completes (R56, assumption log 31). -/
def syncEdge (s : State) : State :=
  match s.line.syncArm.getLast? with
  | none => raiseAlarm 0x0B4D 0 0 s
  | some a =>
    let boxes := s.line.syncArm.map (·.mbx)
    let s := { s with line.syncArm := [] }
    if s.now < a.value then
      boxes.foldl (fun s n => completeMailbox n {} s) { s with gcnt := BitVec.ofNat 64 a.value, line.aligned := true }
    else boxes.foldl (fun s n => completeMailbox n { status := .refused, reason := 0x0B4E } s) s

/-- No edge within 10 ms of an arming. -/
def syncTimeout (s : State) : State :=
  let late (a : SyncArm) : Bool := a.limit ≤ s.now
  (s.line.syncArm.filter late).foldl (fun s a => completeMailbox a.mbx { status := .timeout, reason := 0x0B4C } s)
    { s with line.syncArm := s.line.syncArm.filter fun a => !late a }

end Sys2Proof.Machine
end

