-- ==== Sys2Proof/Machine/Frames.lean ====
section
/-!
DEFINITION. Frame Intake (file 13): packets of the camera ports, the frame ring, the Frame Freshness Monitor, FRAME_TAKE and
FRAME_RETURN.
-/

namespace Sys2Proof.Machine

open Sys2Proof

/-! ## The CAMERA_PORT block and the ring (R325, R327) -/

/-- The enabled CAMERA_PORT block of a port. -/
def State.camera (s : State) (n : Nat) : Option Block := s.devBlock (8 + n)

/-- Bits per pixel of a block's DATA_TYPE. -/
def pixelBits (b : Block) : Nat := match b.field 2 with | 0 => 8 | 1 => 10 | 2 => 12 | _ => 16

/-- The CSI-2 data type of a block's DATA_TYPE (R323). -/
def pixelType (b : Block) : Nat := match b.field 2 with | 0 => 0x2A | 1 => 0x2B | 2 => 0x2C | _ => b.field 3

/-- Payload bytes of a line, LINE_WORDS and FRAME_WORDS (R327). -/
def lineBytes (b : Block) : Nat := b.field 4 * pixelBits b / 8
def lineWords (b : Block) : Nat := ceilDiv (b.field 4 * pixelBits b) 256
def frameWords (b : Block) : Nat := b.field 5 * lineWords b

/-- The RUNNING consumer job of a port (R325). -/
def State.consumer (s : State) (b : Block) : Option (Nat × Job) :=
  match s.runningJob with
  | some (slot, j) => if j.id.toNat == b.field 11 then some (slot, j) else none
  | none => none

/-- The port carries the golden frame of a job (R343). -/
def Job.goldenPort (j : Job) (n : Nat) : Bool :=
  match j.sheetBlock with
  | some b => b.field 0 == n && b.field 16 == 1
  | none => false

/-- SHEET_LAG of the consumer's SHEET_LOOP block, 0 for other consumers (R329). -/
def Job.sheetLag (j : Job) (service : Nat) : Nat :=
  match j.sheetBlock with
  | some b => if b.service == service then b.field 5 else 0
  | none => 0

/-- One port of Frame Intake. -/
def State.fiPort (s : State) (n : Nat) : FiPort := nth s.fi.ports n {}

/-- Change one port. -/
def setPort (n : Nat) (f : FiPort → FiPort) (s : State) : State := { s with fi.ports := upd s.fi.ports n f }

/-- Change one buffer of a port. -/
def setBuf (n b : Nat) (f : FrameBuf → FrameBuf) (s : State) : State := setPort n (fun p => { p with bufs := upd p.bufs b f }) s

/-- Buffer `b` of a port. -/
def FiPort.buf (p : FiPort) (b : Nat) : FrameBuf := nth p.bufs b {}

/-! ## Discarding (R326) -/

/-- Number of the frame in progress, zero when no Frame Start was seen. -/
def State.frameNumber (s : State) (n : Nat) : Nat := match (s.fiPort n).now with | some f => f.number.toNat | none => 0

/-- Discard the frame in progress: its buffer returns to FREE. -/
def discardFrame (n : Nat) (s : State) : State :=
  match (s.fiPort n).now with
  | some f =>
    let s := (match f.buffer with
      | some b => setBuf n b (fun x => { x with state := .free }) s
      | none => s)
    setPort n (fun p => { p with now := some { f with buffer := none, discarded := true } }) s
  | none => s

/-- LAST_REJECT. -/
def noteReject (reason : Nat) (s : State) : State := { s with fi.lastReject := BitVec.ofNat 16 reason }

/-- A failed check with 0x0804 or 0x0805: counted, an event, and the frame discarded. -/
def failFrame (n code : Nat) (s : State) : State :=
  let s := setPort n (fun p =>
    if code == 0x0804 then { p with crcErrors := satAdd 255 p.crcErrors 1 } else { p with sizeErrors := satAdd 255 p.sizeErrors 1 }) s
  let s := writeEvent { s.event code 75 with service := 8 + n, a := n, value := s.frameNumber n } s
  discardFrame n (noteReject code s)

/-- A packet that is not configured, or of an absent feature. -/
def stranger (n : Nat) (s : State) : State :=
  discardFrame n (setPort n (fun p => { p with strangers := satAdd 255 p.strangers 1 }) s)

/-- The first check of R326: the state, and whether the packet is kept. -/
def headerCheck (n : Nat) (ecc : HeaderEcc) (s : State) : State × Bool :=
  match ecc with
  | .ok => (s, true)
  | .corrected => (setPort n (fun p => { p with headerCorrected := satAdd 255 p.headerCorrected 1 }) s, true)
  | .lost => (failFrame n 0x0804 s, false)

/-- A frame dropped (R325, R328). -/
def countDrop (n : Nat) (s : State) : State := setPort n (fun p => { p with dropped := satAdd 65535 p.dropped 1 }) s

/-! ## Packets -/

/-- The buffer that a Frame Start takes: the lowest-numbered FREE one, or under REPLACE_OLDEST the oldest FULL one (R328). -/
def chooseBuffer (b : Block) (golden : Bool) (p : FiPort) : Option (Nat × Bool) :=
  let usable := (List.range (b.field 6)).filter fun i => !(golden && i == 3)
  match usable.find? fun i => (p.buf i).state == .free with
  | some i => some (i, false)
  | none =>
    if b.field 7 == 0 then none
    else (minBy (fun x y => (p.buf x).order < (p.buf y).order) (usable.filter fun i => (p.buf i).state == .full)).map fun i => (i, true)

/-- A new frame begins (R325, R328, R329). -/
def beginFrame (n : Nat) (b : Block) (number : BitVec 16) (s : State) : State :=
  let none_ : FrameNow := { buffer := none, start := s.now, number := number }
  match s.consumer b with
  | none => setPort n (fun p => { p with now := some none_ }) (countDrop n s)
  | some (_, j) =>
    match chooseBuffer b (j.goldenPort n) (s.fiPort n) with
    | none => setPort n (fun p => { p with now := some none_ }) (countDrop n s)
    | some (i, replaced) =>
      let s := if replaced then countDrop n s else s
      let sheet := BitVec.ofNat 32 (s.line.m.toNat / 65536) - BitVec.ofNat 32 (j.sheetLag (b.field 12))
      let buf : FrameBuf :=
        { state := .filling, mFs := s.line.m, capture := s.gcnt, number := number, sheet := sheet,
          noSheet := s.line.state == .lost, skip := false, order := (s.fiPort n).nextOrder }
      setPort n (fun p => { p with bufs := upd p.bufs i fun _ => buf, nextOrder := p.nextOrder + 1,
                                   now := some { none_ with buffer := some i } }) s

/-- A CSI-2 Frame Start. -/
def packetFrameStart (n vc : Nat) (number : BitVec 16) (ecc : HeaderEcc) (s : State) : State :=
  match s.camera n with
  | none => s
  | some b =>
    let (s, kept) := headerCheck n ecc s
    if !kept then s
    else if vc != b.field 1 then stranger n s
    else
      let s := if (s.fiPort n).now.isSome then failFrame n 0x0805 s else s
      beginFrame n b number s

/-- One more word of a band (R330). -/
def Band.add (x : Band) (w : Word) : Band :=
  { count := x.count + 1, digest := BitVec.ofNat 64 (m64 (mixWord 0 w.toNat x.count + x.digest.toNat)),
    first := if x.count == 0 then w else x.first, constant := x.constant && (x.count == 0 || w == x.first) }

/-- The band of a line: the last one whose first line is not beyond it. -/
def bandOf (height line : Nat) : Nat :=
  ((List.range 64).reverse.find? fun j => j * height / 64 ≤ line && line < (j + 1) * height / 64).getD 63

/-- Word key of a line in a buffer of a port's ring. -/
def lineKey (j : Job) (b : Block) (buf line : Nat) : Option Nat :=
  (j.bufferSpan (b.field 13)).map fun sp => sp.key + buf * frameWords b + line * lineWords b

/-- Store a line of a frame and take its words into the fingerprint of its band (R327, R330). -/
def storeLine (n : Nat) (b : Block) (j : Job) (f : FrameNow) (buf : Nat) (payload : List Byte) (s : State) : State :=
  let bytes := (payload ++ List.replicate (32 * lineWords b - payload.length) 0).take (32 * lineWords b)
  let ws := bytesWords (lineWords b) bytes
  if f.lines < b.field 5 then
    let s := match lineKey j b buf f.lines with | some k => writeWords k ws s | none => s
    let bands := upd f.bands (bandOf (b.field 5) f.lines) fun x => ws.foldl Band.add x
    setPort n (fun p => { p with now := some { f with lines := f.lines + 1, bands := bands } }) s
  else setPort n (fun p => { p with now := some { f with lines := f.lines + 1 } }) s

/-- A line of a frame that no buffer takes is counted and not stored. -/
def countLine (n : Nat) (f : FrameNow) (s : State) : State := setPort n (fun p => { p with now := some { f with lines := f.lines + 1 } }) s

/-- A CSI-2 long packet. -/
def packetLong (n vc dataType wordCount : Nat) (payload : List Byte) (crcOk : Bool) (ecc : HeaderEcc) (s : State) : State :=
  match s.camera n with
  | none => s
  | some b =>
    let (s, kept) := headerCheck n ecc s
    if !kept then s
    else if vc != b.field 1 then stranger n s
    else if dataType == 0x12 then (if crcOk then s else failFrame n 0x0804 s)
    else if dataType != pixelType b then stranger n s
    else if wordCount != lineBytes b then failFrame n 0x0805 s
    else if !crcOk then failFrame n 0x0804 s
    else match (s.fiPort n).now with
      | none => s
      | some f => (match f.buffer, s.consumer b with
        | none, _ => countLine n f s
        | some _, none => countLine n { f with buffer := none } (countDrop n (discardFrame n s))
        | some buf, some (_, j) => storeLine n b j f buf payload s)

/-- A CSI-2 Frame End. -/
def packetFrameEnd (n vc : Nat) (ecc : HeaderEcc) (s : State) : State :=
  match s.camera n with
  | none => s
  | some b =>
    let (s, kept) := headerCheck n ecc s
    if !kept then s
    else if vc != b.field 1 then stranger n s
    else match (s.fiPort n).now with
      | none => failFrame n 0x0805 s
      | some f =>
        let s := (if !f.discarded && f.lines != b.field 5 then failFrame n 0x0805 s
          else match f.buffer with
          | none => s
          | some buf =>
            if (s.consumer b).isNone then countDrop n (discardFrame n s)
            else setPort n (fun p => { p with ended := p.ended ++ [⟨buf, f.bands⟩] }) s)
        setPort n (fun p => { p with now := none }) s

/-- A CSI-2 short packet other than Frame Start and Frame End: Line Start and Line End are ignored (R323, R324). -/
def packetShort (n vc dataType : Nat) (ecc : HeaderEcc) (s : State) : State :=
  match s.camera n with
  | none => s
  | some b =>
    let (s, kept) := headerCheck n ecc s
    if !kept then s
    else if vc == b.field 1 && (dataType == 2 || dataType == 3) then s
    else stranger n s

/-- No Frame End within FRAME_MAX of Frame Start, whether the frame has a buffer or not (R326); a frame expires once. -/
def frameMax (n : Nat) (s : State) : State :=
  match s.camera n, (s.fiPort n).now with
  | some b, some f =>
    if !f.expired && f.start + 1000000 * b.field 10 ≤ s.now then
      let s := setPort n (fun p => { p with maxExpiries := satAdd 255 p.maxExpiries 1, now := some { f with expired := true } }) s
      discardFrame n (noteReject 0x0803 (raiseAlarm 0x0803 0 0 s))
    else s
  | _, _ => s

/-! ## FRAME_TAKE (R334, R335) -/

/-- The descriptor of a taken frame. -/
def frameDescriptor (n b : Nat) (golden : Bool) (x : FrameBuf) (sheet offset : Nat) : Word :=
  word (at_ n 0 2 ||| at_ b 2 2 ||| at_ (b2n golden) 4 1 ||| at_ (b2n x.noSheet) 5 1 ||| at_ (b2n x.skip) 6 1 |||
    at_ x.number.toNat 16 16 ||| at_ sheet 32 32 ||| at_ x.mFs.toNat 64 48 ||| at_ x.capture.toNat 128 64 ||| at_ offset 192 32)

/-- A sheet comes before another (positions count modulo 2^32 cycles). -/
def sheetBefore (a b : Reg) : Bool := a != b && (b - a).toNat < 2 ^ 31

/-- The buffer that MODE 0 or 1 takes, and the FULL buffers that return to FREE with it. -/
def qualifying (mode : Nat) (sheet : Option Reg) (p : FiPort) : Option (Nat × List Nat) :=
  let full := (List.range 4).filter fun i => (p.buf i).state == .full
  if mode == 0 then
    (minBy (fun x y => (p.buf x).order > (p.buf y).order) full).map fun i => (i, full.filter (· != i))
  else match sheet with
    | none => none
    | some sh =>
      let able := full.filter fun i => (p.buf i).sheet == sh && !(p.buf i).noSheet
      (minBy (fun x y => (p.buf x).order < (p.buf y).order) able).map fun i =>
        (i, full.filter fun k => (p.buf k).noSheet || sheetBefore (p.buf k).sheet sh)

/-- Words as they stand, for a digest that the engine formed as it wrote them: no read is counted (R479). -/
def peekWords (k : Nat) : Nat → State → State × List (Option Word)
  | 0, s => (s, [])
  | n + 1, s =>
    let (s, st) := fetchStored k s
    let (s, ws) := peekWords (k + 1) n s
    (s, (match decodeStored (s.rowCol k) st with
      | .clean d | .corrected d _ _ => some d
      | .poison | .uncorrectable _ => none) :: ws)

/-- The digest of the words of frame buffer `i` of a port's ring (R479). -/
def frameDigest (j : Job) (b : Block) (i : Nat) (s : State) : State × Nat :=
  match j.bufferSpan (b.field 13) with
  | none => (s, 0)
  | some sp =>
    let (s, ws) := peekWords (sp.key + i * frameWords b) (frameWords b) s
    (s, digestOf j.digestKey.toNat ((List.range ws.length).zip ws))

/-- Deliver the descriptor of buffer `i` as the result of an item; the digest covers the frame (R479). -/
def deliverFrame (it : Item) (j : Job) (b : Block) (i : Nat) (w : Word) (s : State) : State × Result :=
  let (s, _) := writeOut j it 0 0 (clean [w]) s
  let (s, d) := frameDigest j b i s
  (s, done .ok 0 0 0 d)

/-- Take a FULL buffer for an item, if one qualifies. -/
def tryTake (n : Nat) (b : Block) (it : Item) (j : Job) (s : State) : Option (State × Result) :=
  let p := s.fiPort n
  (qualifying (bits (Entry.param it.entry) 2 2) it.sheet p).map fun (i, stale) =>
    let bufs := stale.foldl (fun l k => upd l k fun x => { x with state := BufState.free }) p.bufs
    let bufs := upd bufs i fun x => { x with state := .held }
    let s := setPort n (fun p => { p with bufs := bufs, stale := satAdd 65535 p.stale stale.length }) s
    deliverFrame it j b i (frameDescriptor n i false (p.buf i) (p.buf i).sheet.toNat (i * frameWords b)) s

/-- The descriptor of the golden frame; M_FS and CAPTURE, which the spec does not give for it, are free values. -/
def takeGolden (n : Nat) (b : Block) (it : Item) (j : Job) (s : State) : State × Result :=
  let x : FrameBuf := { mFs := (Config.freeValue s.freeCount).setWidth 48, capture := Config.freeValue (s.freeCount + 1) }
  let sheet := (it.sheet.map (·.toNat)).getD 0
  deliverFrame it j b 3 (frameDescriptor n 3 true x sheet (3 * frameWords b)) { s with freeCount := s.freeCount + 2 }

/-- The Global Counter at which a waiting FRAME_TAKE expires (R334). -/
def takeExpiry (it : Item) : Nat := 1000 * ceilDiv (it.started + 1000 * it.limit) 1000

/-- FRAME_TAKE on its item. -/
def frameTakeItem (it : Item) (j : Job) (s : State) : State × Option Result :=
  let n := Entry.param it.entry % 4
  match s.camera n with
  | none => (setPort n (fun p => { p with take := some (it.id, takeExpiry it) }) s, none)
  | some b =>
    if bits (Entry.param it.entry) 2 2 == 2 then
      let (s, r) := takeGolden n b it j s
      (s, some r)
    else match tryTake n b it j s with
      | some (s, r) => (s, some r)
      | none => (setPort n (fun p => { p with take := some (it.id, takeExpiry it) }) s, none)

/-- Serve the FRAME_TAKE that waits at a port, if a frame qualifies now. -/
def serveTake (n : Nat) (s : State) : State :=
  match (s.fiPort n).take, s.camera n with
  | some (id, _), some b =>
    (match s.runningItem id 0x0801 with
     | none => setPort n (fun p => { p with take := none }) s
     | some (it, j) => match tryTake n b it j s with
       | some (s, r) => setResult id r (setPort n (fun p => { p with take := none }) s)
       | none => s)
  | _, _ => s

/-- A waiting FRAME_TAKE reaches its limit (R334). -/
def takeTimeout (id : Nat) (s : State) : State :=
  (List.range 4).foldl (fun s n =>
    match (s.fiPort n).take with
    | some (i, at_) =>
      if i == id && at_ ≤ s.now then
        let s := setPort n (fun p => { p with take := none }) s
        match s.runningItem id 0x0801 with
        | some _ => setResult id (done .timeout 0x0803) (raiseAlarm 0x0803 0 0 s)
        | none => s
      else s
    | none => s) s

/-- FRAME_RETURN on its item (R336). -/
def frameReturnItem (it : Item) (j : Job) (s : State) : State × Option Result :=
  let p := Entry.param it.entry
  let n := p % 4
  let b := bits p 2 2
  if j.goldenPort n && b == 3 then (s, some (done))
  else if ((s.fiPort n).buf b).state == .held then (setBuf n b (fun x => { x with state := .free }) s, some (done))
  else (s, some (done .refused 0x0114))

/-! ## The Frame Freshness Monitor (R331 to R333) -/

/-- Bands of a frame that are not constant and equal those of the last accepted frame. -/
def frozenBands (a b : List Band) : Nat := ((a.zip b).filter fun (x, y) => !x.constant && x.digest == y.digest).length

/-- A rejected frame: its buffer returns to FREE. -/
def rejectFrame (n buf code : Nat) (s : State) : State :=
  let s := setPort n (fun p =>
    if code == 0x0801 then { p with frozen := satAdd 255 p.frozen 1 } else { p with repeated := satAdd 255 p.repeated 1 }) s
  setBuf n buf (fun x => { x with state := .free }) (noteReject code (raiseAlarm code 0 0 s))

/-- The number that follows a frame number (R331). -/
def nextFrameNumber (r : BitVec 16) : BitVec 16 := if r == 65535 then 1 else r + 1

/-- A frame passes: its buffer becomes FULL and it becomes the reference. -/
def acceptFrame (n : Nat) (b : Block) (e : EndedFrame) (s : State) : State :=
  let p := s.fiPort n
  let num := (p.buf e.buffer).number
  let skip := b.field 8 == 1 && (match p.refNumber with | some r => num != nextFrameNumber r | none => false)
  setPort n (fun p => { p with
    bufs := upd p.bufs e.buffer fun x => { x with state := .full, skip := skip }
    accepted := satAdd 65535 p.accepted 1
    skips := if skip then satAdd 255 p.skips 1 else p.skips
    refNumber := some num
    refBands := e.bands }) s

/-- The decision on the frame that ended first (R333). -/
def ffmDecide (n : Nat) (s : State) : State :=
  match s.camera n, (s.fiPort n).ended with
  | some b, e :: rest =>
    let s := setPort n (fun p => { p with ended := rest }) s
    let p := s.fiPort n
    let num := (p.buf e.buffer).number
    if b.field 8 == 1 && (num == 0 || p.refNumber == some num) then rejectFrame n e.buffer 0x0802 s
    else if b.field 9 ≤ frozenBands e.bands p.refBands then rejectFrame n e.buffer 0x0801 s
    else serveTake n (acceptFrame n b e s)
  | _, _ => s

end Sys2Proof.Machine
end

