-- ==== Sys2Proof/Machine/Sheet.lean ====
section
/-!
DEFINITION. The sheet loop (file 13): the correction slot, the record released at a release instant, and the golden pass.
-/

namespace Sys2Proof.Machine

open Sys2Proof

/-! ## Records (R338) -/

/-- N_VALUES, N_DEFECTS and RECORD_WORDS of a SHEET_LOOP block. -/
def sheetValues (b : Block) : Nat := b.field 11
def sheetDefects (b : Block) : Nat := b.field 12
def recordWords (b : Block) : Nat := 6 + ceilDiv (sheetValues b) 8

/-- Word `i` of a record. -/
def recWord (ws : List Word) (i : Nat) : Nat := (nth ws i 0).toNat

/-- The reserved bits of a record (R338). -/
def recordReserved (ws : List Word) : Bool :=
  bits (recWord ws 0) 55 9 == 0 && bits (recWord ws 0) 85 3 == 0 && bits (recWord ws 0) 144 16 == 0 && bits (recWord ws 1) 128 128 == 0

/-- INDEX of defect entry `i`. -/
def defectIndex (ws : List Word) (i : Nat) : Nat := bits (recWord ws (2 + i / 4)) (64 * (i % 4) + 32) 32

/-- Value `i` of a record. -/
def recordValue (ws : List Word) (i : Nat) : Int := signed 32 (bits (recWord ws (6 + i / 8)) (32 * (i % 8)) 32)

/-- The fields written at release, laid over a record (R338, R341). -/
def releasedRecord (ws : List Word) (sheet source : Reg) (seq : Nat) (held : Bool) (cause relFrac : Nat) : List Word :=
  let w := recWord ws 0
  let keep := at_ (bits w 52 44) 52 44 ||| at_ (bits w 144 16) 144 16 ||| at_ (bits w 192 64) 192 64
  let head := keep ||| at_ sheet.toNat 0 32 ||| at_ seq 32 16 ||| at_ (b2n held) 48 1 ||| at_ cause 49 3 |||
    at_ (sheet.toNat * 65536 + relFrac) 96 48 ||| at_ source.toNat 160 32
  word head :: ws.drop 1

/-! ## Release instants (R337, R340) -/

/-- The position of a sheet's release or golden instant: s:FRAC. -/
def sheetPos (s : Reg) (frac : Nat) : LinePos := BitVec.ofNat 48 (s.toNat * 65536 + frac)

/-- The release entry on the delay list of a SHEET_LOOP block. -/
def State.releaseEntry (s : State) (b : Block) : Option DelayEntry :=
  (s.delayList (b.field 1)).find? fun e => e.tag == serviceTag 0x14

/-- The release instant of a sheet has passed. -/
def State.releasePassed (s : State) (b : Block) (sheet : Reg) : Bool :=
  (match s.sheet.released with | some r => r == sheet || sheetBefore sheet r | none => false) ||
  (match s.releaseEntry b with | some e => sheetBefore sheet (BitVec.ofNat 32 (e.key.toNat / 65536)) | none => false)

/-! ## CORRECTION_SEND (R340, R345) -/

/-- The first defect entry or value of a record that differs from the expected record (R345). -/
def goldenDiff (b : Block) (ws expect : List Word) : Option Nat :=
  let tol : Int := b.field 20
  match (List.range 16).find? fun i => defectIndex ws i != defectIndex expect i with
  | some i => some i
  | none => (List.range (sheetValues b)).find? fun i =>
      let d := recordValue ws i - recordValue expect i
      d > tol || d < -tol

/-- N_VALUES and N_DEFECTS of a record equal those given. -/
def recordCounts (ws : List Word) (values defects : Nat) : Bool :=
  bits (recWord ws 0) 64 16 == values && bits (recWord ws 0) 80 5 == defects

/-- The golden comparison: its result word, and whether the record passes. -/
def goldenWord (b : Block) (ws expect : List Word) (passing : Bool) : Word × Bool :=
  let d := goldenDiff b ws expect
  let same := recordCounts expect (bits (recWord ws 0) 64 16) (bits (recWord ws 0) 80 5)
  let pass := same && d.isNone && passing
  (word (b2n pass ||| at_ (d.getD 0xFFFF) 16 16), pass)

/-- The golden record is compared, and never released. -/
def goldenSend (it : Item) (j : Job) (b : Block) (ws : List Word) : Run Result := do
  let expect ← match j.bufferSpan (b.field 17) with
    | some sp => getAll it.requester sp.key (recordWords b)
    | none => pure []
  let passing ← stateOp fun s => (s, s.sheet.pass && !s.sheet.passFailed)
  let (w, pass) := goldenWord b ws expect passing
  change fun s => if pass then s else { s with sheet.passFailed := true }
  let d ← stateOp fun s => writeOut j it 1 0 (clean [w]) s
  pure (done .ok 0 0 0 d)

/-- The checks of R340 on a record of the sheet loop, and its keeping for release.  The slot holds the records of two sheets; while both are unreleased a
third sheet is refused like one too far ahead (DESIGN CHOICE, log 96). -/
def keepRecord (b : Block) (sheet : Reg) (ws : List Word) (s : State) : State × Result :=
  let at_ := sheetPos sheet (b.field 3)
  if s.releasePassed b sheet then
    ({ s with sheet.lateRecords := satAdd 65535 s.sheet.lateRecords 1 }, done .aborted 0x0206)
  else if (keyAhead at_ s.line.m && 131072 < keyDistance at_ s.line.m) || s.sheet.records.any (·.1 == sheet) ||
      2 ≤ s.sheet.records.length then
    (s, done .refused 0x0105)
  else ({ s with sheet.records := s.sheet.records ++ [(sheet, ws)] }, done)

/-- CORRECTION_SEND on its item. -/
def correctionSendProg (it : Item) (j : Job) : Run Result := do
  match j.sheetBlock, j.operandSpan it.entry 0 with
  | some b, some sp => do
    let ws ← getAll it.requester sp.key (recordWords b)
    ensure (recordCounts ws (sheetValues b) (sheetDefects b) && recordReserved ws &&
      it.sheet == some (BitVec.ofNat 32 (bits (recWord ws 0) 0 32))) 0x0114
    if Entry.param it.entry % 2 == 1 then goldenSend it j b ws
    else stateOp fun s => keepRecord b (BitVec.ofNat 32 (bits (recWord ws 0) 0 32)) ws s
  | _, _ => throw { reason := 0x0114 }

/-- CORRECTION_SEND on its item; a poisoned word poisons its one output word (R399). -/
def correctionSendItem (it : Item) (j : Job) (s : State) : State × Option Result :=
  match runProg (correctionSendProg it j) s with
  | (s, .ok r) => (s, some r)
  | (s, .error f) => if f.status == .poisoned then poisonOut j it 1 1 s else (s, some f.result)

/-! ## The release (R341, R342, R346) -/

/-- The cause of R341 for a sheet, 0 for the record of the sheet. -/
def releaseCause (b : Block) (sheet : Reg) (s : State) : Nat :=
  let mark := (s.sheet.marks.find? (·.sheet == sheet)).getD ⟨sheet, false, false, false⟩
  if b.field 16 == 1 && s.sheet.frozen then 5
  else if mark.poisoned then 3
  else if mark.faulted then 2
  else if mark.noFrame then 1
  else if !s.sheet.records.any (·.1 == sheet) then 4
  else 0

/-- NEUTRAL as it stands; a word that cannot be read is a free value. -/
def readNeutral (j : Job) (b : Block) (s : State) : State × List Word :=
  match j.bufferSpan (b.field 13) with
  | none => (s, [])
  | some sp =>
    let (s, gs) := readWords { num := 75, job := j.id, service := b.service } sp.key (recordWords b) s
    gs.foldl (fun (s, ws) g =>
      if g.bad then ({ s with freeCount := s.freeCount + 1 }, ws ++ [Config.freeData s.freeCount]) else (s, ws ++ [g.data])) (s, [])

/-- A correction record enters a port's queue; one still unsent is discarded whole as superseded (R452). -/
def enqueueCorrection (ws : List Word) (p : FieldPort) : FieldPort :=
  let old := (p.queue.filter fun f => match f with | .correction _ _ => true | _ => false).length
  { p with queue := (p.queue.filter fun f => match f with | .correction _ _ => false | _ => true) ++ [.correction ws 0],
           superseded := satAdd 255 p.superseded old }

/-- Hand a released record to its destination (R342). -/
def deliverRecord (j : Job) (b : Block) (seq : Nat) (ws : List Word) (s : State) : State :=
  if b.field 10 < 4 then
    { s with fp := upd s.fp (b.field 10) (enqueueCorrection ws) }
  else
    let at_ := seq % b.field 15
    let s := match j.bufferSpan (b.field 14) with
      | some sp => writeWords (sp.key + at_ * recordWords b) ws s
      | none => s
    writeCompletion { job := j.id, service := b.service, a := seq, b := at_ } s

/-- SHEETS_SINCE after a release instant; passing GOLDEN_INTERVAL freezes the loop (R343, R346). -/
def countSheet (b : Block) (s : State) : State :=
  let n := satAdd 65535 s.sheet.sheetsSince 1
  let passes := b.field 19 < n && s.sheet.sheetsSince ≤ b.field 19
  let s := { s with sheet.sheetsSince := n }
  if passes then raiseAlarm 0x0806 0 0 { s with sheet.frozen := true } else s

/-- The release instant of a sheet (R341, R342, R346); the alarms of one instant are raised in ascending class order (R437). -/
def sheetRelease (j : Job) (b : Block) (sheet : Reg) (s : State) : State :=
  let cause := releaseCause b sheet s
  let s := countSheet b s
  let s := if cause == 4 then raiseAlarm 0x0808 0 0 s else s
  let seq := (s.sheet.releases + 1) % 65536
  let own := ((s.sheet.records.find? (·.1 == sheet)).map (·.2)).getD []
  let (s, base) := if cause == 0 then (s, own) else if s.sheet.lastGood.isEmpty then readNeutral j b s else (s, s.sheet.lastGood)
  let source := if cause == 0 then sheet else BitVec.ofNat 32 (bits (recWord base 0) 160 32)
  let out := releasedRecord base sheet source seq (cause != 0) cause (b.field 3)
  let s := { s with
    sheet.lastGood := if cause == 0 then out else s.sheet.lastGood
    sheet.records := s.sheet.records.filter fun r => sheetBefore sheet r.1
    sheet.marks := s.sheet.marks.filter fun m => sheetBefore sheet m.sheet
    sheet.releases := s.sheet.releases + 1
    sheet.lastSheet := sheet
    sheet.lastCause := cause
    sheet.heldOver := if cause == 0 then s.sheet.heldOver else satAdd 65535 s.sheet.heldOver 1
    sheet.released := some sheet }
  deliverRecord j b seq out s

/-! ## GOLDEN_INJECT (R344) -/

/-- Tag of the one-shot entry of a golden pass (assumption log 11). -/
def goldenTag : Reg := 0xFFFF8014

/-- A real frame of a port is FILLING or FULL. -/
def State.realFrame (s : State) (j : Job) (n : Nat) : Bool :=
  (List.range 4).any fun i =>
    !(j.goldenPort n && i == 3) && (((s.fiPort n).buf i).state == .filling || ((s.fiPort n).buf i).state == .full)

/-- Count a deferral of the golden pass. -/
def deferGolden (s : State) : State := { s with sheet.deferrals := satAdd 65535 s.sheet.deferrals 1 }

/-- The outcome of GOLDEN_INJECT for a sheet. -/
def goldenOutcome (slot : Nat) (j : Job) (b : Block) (sheet : Reg) (s : State) : State × Nat :=
  let dl := b.field 1
  let key := sheetPos sheet (b.field 4)
  if b.field 16 == 0 || (s.sheet.sheetsSince < b.field 18 && !s.sheet.frozen) then (s, 0)
  else if s.sheet.pass then (s, 1)
  else if s.realFrame j (b.field 0) then (deferGolden s, 2)
  else if keyDue key s.line.m then (deferGolden s, 3)
  else match insertDelay dl { key := key, period := 0, action := 0, reserved := 0, syncObj := b.field 9, tag := goldenTag }
      ⟨some slot, b.service⟩ s with
    | .ok s => ({ s with sheet.pass := true, sheet.passFailed := false }, 5)
    | .error _ => (deferGolden s, 4)

/-- GOLDEN_INJECT on its item; the sheet of a triggering that has none is a free value. -/
def goldenInjectItem (it : Item) (j : Job) (s : State) : State × Option Result :=
  match j.sheetBlock with
  | none => (s, some (done))
  | some b =>
    let (s, sheet) := match it.sheet with
      | some sh => (s, sh)
      | none => ({ s with freeCount := s.freeCount + 1 }, (Config.freeValue s.freeCount).setWidth 32)
    let (s, o) := goldenOutcome it.slot j b sheet s
    ((writeOut j it 0 0 (clean [word o]) s).1, some (done))

end Sys2Proof.Machine
end

