-- ==== Sys2Proof/Machine/FieldPorts.lean ====
section
/-!
DEFINITION. Field Ports (file 17): frames and their checks (R446, R447), transmission (R451 to R453), SETPOINT_SEND (R454) and reception
(R455 to R457).
-/

namespace Sys2Proof.Machine

open Sys2Proof

/-! ## Checks of frames (R447) -/

/-- One bit step of a reflected CRC. -/
def crcStep (poly c : Nat) : Nat := if c % 2 == 1 then (c / 2) ^^^ poly else c / 2

/-- One byte of a reflected CRC. -/
def crcByte (poly c : Nat) (b : Byte) : Nat := (List.range 8).foldl (fun c _ => crcStep poly c) (c ^^^ b.toNat)

/-- A reflected CRC-32 with initial value and final XOR 0xFFFF_FFFF; the polynomial is given reflected. -/
def crc32 (poly : Nat) (bs : List Byte) : Nat := (bs.foldl (crcByte poly) 0xFFFFFFFF) ^^^ 0xFFFFFFFF

/-- CRC-32C: 0x1EDC_6F41 reflected. -/
def crc32c (bs : List Byte) : Nat := crc32 0x82F63B78 bs

/-- The CRC-32 of IEEE 802.3: 0x04C1_1DB7 reflected. -/
def fcs (bs : List Byte) : Nat := crc32 0xEDB88320 bs

/-! ## Frames (R446) -/

/-- The fields of a frame of the device. -/
structure TuoreFrame where
  dest : Nat
  kind : Nat
  seq : BitVec 16
  sub : Nat := 0
  safe : Bool := false
  validPos : Nat := 0
  gBase : Nat := 0
  payload : List Byte
  deriving DecidableEq, Repr

/-- The frame as bytes on the wire, FCS included, padded to 64 bytes. -/
def TuoreFrame.bytes (f : TuoreFrame) (b : Block) : List Byte :=
  let eth := toBytes f.dest 6 ++ toBytes (b.field 4) 6 ++ (toBytes (b.field 5) 2).reverse
  let head := toBytes 1 1 ++ toBytes f.kind 1 ++ toBytes f.payload.length 2 ++ toBytes f.seq.toNat 2 ++ toBytes f.sub 1 ++
    toBytes (b2n f.safe) 1 ++ toBytes f.validPos 6 ++ toBytes 0 2 ++ toBytes f.gBase 8
  let body := head ++ f.payload
  let frame := eth ++ body ++ toBytes (crc32c body) 4
  let frame := frame ++ List.replicate (60 - frame.length) 0
  frame ++ toBytes (fcs frame) 4

/-- Time on the wire with the preamble, at 10 Mb/s. -/
def wireTime (bytes : List Byte) : Nat := 800 * (bytes.length + 8)

/-! ## Transmission (R449, R451 to R453) -/

/-- One Field Port. -/
def State.port (s : State) (n : Nat) : FieldPort := nth s.fp n {}

/-- Change a node of a port. -/
def setNode (n m : Nat) (f : FpNode → FpNode) (s : State) : State := setFp n (fun p => { p with nodes := upd p.nodes m f }) s

/-- SEQ of the next frame to a node. -/
def State.nodeSeq (s : State) (n m : Nat) : BitVec 16 := (nth (s.port n).nodes m {}).txSeq

/-- G_BASE of a release. -/
def Release.gBase (r : Release) : Nat := bits (nth r.words 0 0).toNat 192 64

/-- Discard the SETPOINT frames that a test finds late (R451). -/
def discardLate (late : Release → Bool) (p : FieldPort) : FieldPort :=
  let gone (f : FpFrame) : Bool := match f with | .setpoint r => late r | _ => false
  { p with queue := p.queue.filter (fun f => !gone f), late := satAdd 255 p.late (p.queue.filter gone).length }

/-- The code of the line state (LT_STATUS). -/
def lineCode : LineState → Nat
  | .running => 0 | .stopped => 1 | .lost => 2

/-- The gap before a further frame of a burst: 96 bit times at 10 Mb/s (the example of file 17). -/
def frameGap : Nat := 9600

/-- The collisions that the frame started now meets, at most 16 (R445): a free value (assumption log 55). -/
def State.met (s : State) : Nat := (Config.freeValue s.freeCount).toNat % 17

/-- How long those collisions hold the frame back: a free value (assumption log 55). -/
def State.backoff (s : State) : Nat := if s.met == 0 then 0 else (Config.freeValue s.freeCount).toNat / 17

/-- The frame started now meets 16 collisions and is discarded (R445). -/
def State.excess (s : State) : Bool := s.met == 16

/-- A frame is started: it is on the wire and counted, or discarded and counted as EXCESS; the collisions of a port on which PLCA is
active are counted (R445). -/
def sendFrame (n : Nat) (fragment : Bool) (bytes : List Byte) (s : State) : State :=
  let ok := !s.excess
  setFp n (fun p => { p with
    wire := if ok then p.wire ++ [bytes] else p.wire
    sent := satAdd 65535 p.sent (b2n ok)
    fragments := satAdd 65535 p.fragments (b2n (ok && fragment))
    excess := satAdd 255 p.excess (b2n !ok)
    collisions := if p.plcaOk then satAdd 65535 p.collisions s.met else p.collisions }) { s with freeCount := s.freeCount + 1 }

/-- The TIME frame that is due; its SFD has left the pin when the 8 bytes of preamble have (R446). -/
def sendTime (n : Nat) (b : Block) (t : Nat) (s : State) : State × Nat :=
  let payload := toBytes s.line.v.toNat 6 ++ toBytes (lineCode s.line.state) 1 ++ toBytes 0 7
  let f : TuoreFrame := { dest := b.field 6, kind := 4, seq := (s.port n).timeSeq, validPos := s.line.m.toNat, gBase := t + s.backoff + 6400, payload := payload }
  let bytes := f.bytes b
  (sendFrame n false bytes (setFp n (fun p => { p with timeDue := false, timeSeq := p.timeSeq + 1 }) s), s.backoff + wireTime bytes)

/-- A SETPOINT frame of a release. -/
def sendSetpoint (n : Nat) (b : Block) (r : Release) (s : State) : State × Nat :=
  let w := (nth r.words 0 0).toNat
  let s := setFp n (fun p => { p with queue := p.queue.filter fun f => !f.isSetpoint r.channel }) s
  match nodeWith b fun d => d.role == 1 && d.channel == r.channel with
  | none => (s, 0)
  | some m =>
    let f : TuoreFrame :=
      { dest := (nodeDef b m).mac, kind := 1, seq := s.nodeSeq n m, sub := r.channel, safe := w.testBit 6, validPos := bits w 128 48,
        gBase := r.gBase, payload := r.payload }
    let bytes := f.bytes b
    let last (x : FpNode) := if s.excess then x.lastSent else some r
    (sendFrame n false bytes (setNode n m (fun x => { x with txSeq := x.txSeq + 1, lastSent := last x }) s), s.backoff + wireTime bytes)

/-- An AUX frame to a node. -/
def sendAux (n : Nat) (b : Block) (m : Nat) (payload : List Byte) (s : State) : State × Nat :=
  let f : TuoreFrame := { dest := (nodeDef b m).mac, kind := 2, seq := s.nodeSeq n m, payload := payload }
  let bytes := f.bytes b
  (sendFrame n false bytes (setNode n m (fun x => { x with txSeq := x.txSeq + 1 }) s), s.backoff + wireTime bytes)

/-- A fragment of a correction record (R453). -/
def fragmentFrame (b : Block) (seq : BitVec 16) (m : Nat) (rec_ : List Word) (f : Nat) : TuoreFrame :=
  let frag := b.field 11
  let count := ceilDiv (32 * rec_.length) frag
  { dest := (nodeDef b m).mac, kind := 3, seq := seq, sub := f + 16 * (count - 1), validPos := bits (nth rec_ 0 0).toNat 96 48,
    payload := ((wordsBytes rec_).drop (f * frag)).take frag }

/-- Global Counter of the next firing of the control cycle at the virtual rate; none while no control-cycle service runs (R452). -/
def State.nextFiring (s : State) : Option Nat :=
  match s.runningJob with
  | none => none
  | some (_, j) => match j.blockOf 0x10 with
    | none => none
    | some b =>
      let rate := s.lineField 10 0
      match (s.delayList (b.field 0)).find? fun e => e.tag == serviceTag 0x10 with
      | none => none
      | some e =>
        let p := s.listPos (b.field 0)
        if keyDue e.key p || rate == 0 then some s.now else some (s.now + ceilDiv (keyDistance e.key p * 1000000) rate)

/-- A fragment that would start at `t` and take `d` may start (R452). -/
def State.fragmentFits (s : State) (t d : Nat) : Bool :=
  match s.nextFiring with
  | none => true
  | some g => t + d + 10000 ≤ g

/-- Put the next fragment of the queued correction record on the wire, if it may start. -/
def sendFragment (n : Nat) (b : Block) (rec_ : List Word) (f t : Nat) (s : State) : Option (State × Nat) :=
  match nodeWith b fun d => d.role == 2 with
  | none => none
  | some m =>
    let bytes := (fragmentFrame b (s.nodeSeq n m) m rec_ f).bytes b
    if !s.fragmentFits t (wireTime bytes) then none
    else
      let last := ceilDiv (32 * rec_.length) (b.field 11) ≤ f + 1
      let s := setFp n (fun p => { p with
        queue := p.queue.flatMap fun x => match x with
          | .correction w _ => if last then [] else [.correction w (f + 1)]
          | x => [x] }) s
      some (sendFrame n true bytes (setNode n m (fun x => { x with txSeq := x.txSeq + 1 }) s), s.backoff + wireTime bytes)

/-- The queued SETPOINT of the lowest channel. -/
def FieldPort.nextSetpoint (p : FieldPort) : Option Release :=
  minBy (fun a b => a.channel < b.channel) (p.queue.filterMap fun f => match f with | .setpoint r => some r | _ => none)

/-- The first queued AUX frame, removed. -/
def takeAux : List FpFrame → Option (Nat × List Byte × List FpFrame)
  | [] => none
  | .aux m bs :: t => some (m, bs, t)
  | f :: t => (takeAux t).map fun (m, bs, l) => (m, bs, f :: l)

/-- The next frame of an opportunity, in the order of R451, started at `t`: the state, and its wire time. -/
def sendNext (n : Nat) (b : Block) (t : Nat) (s : State) : Option (State × Nat) :=
  let s := setFp n (discardLate fun r => r.gBase < t) s
  let p := s.port n
  if p.timeDue then some (sendTime n b t s)
  else match p.nextSetpoint with
    | some r => some (sendSetpoint n b r s)
    | none => match takeAux p.queue with
      | some (m, bs, l) => some (sendAux n b m bs (setFp n (fun p => { p with queue := l }) s))
      | none => match p.queue.findSome? fun f => match f with | .correction w i => some (w, i) | _ => none with
        | some (w, i) => sendFragment n b w i t s
        | none => none

/-- Up to `k` frames of an opportunity, each after the gap that follows the one before. -/
def sendFrames (n : Nat) (b : Block) : Nat → Nat → State → State
  | 0, _, s => s
  | k + 1, t, s => match sendNext n b t s with
    | some (s, d) => sendFrames n b k (t + d + frameGap) s
    | none => setFp n (discardLate fun r => r.gBase < t) s

/-- The frames that an opportunity may take: a burst belongs to PLCA, CSMA/CD sends one (R442, R445; assumption log 55). -/
def burstOf (b : Block) (p : FieldPort) : Nat := if p.plcaOk then 1 + b.field 3 else 1

/-- A transmit opportunity of a port. -/
def transmit (n : Nat) (s : State) : State :=
  match s.fieldBlock n with
  | none => s
  | some b => sendFrames n b (burstOf b (s.port n)) s.now (setFp n (fun p => { p with wire := [] }) s)

/-- TIME_PERIOD passes (R443); a port without a TIME_GROUP has no address to send TIME to (assumption log 66). -/
def timeDue (n : Nat) (s : State) : State :=
  match s.fieldBlock n with
  | none => s
  | some b =>
    if b.field 7 != 0 && !b.defaulted 6 && (s.port n).lastTime + 1000000 * b.field 7 ≤ s.now then
      setFp n (fun p => { p with timeDue := true, lastTime := s.now }) s
    else s

/-- SETPOINT frames not started by their G_BASE (R451). -/
def lateDiscard (n : Nat) (s : State) : State :=
  if (s.fieldBlock n).isSome then setFp n (discardLate fun r => r.gBase ≤ s.now) s else s

/-- A port whose block has been enabled: streams start at 1, timeouts start now (R449, R457). -/
def enableFieldPort (n : Nat) (b : Block) (s : State) : State :=
  setFp n (fun p => { p with
    queue := [], batch := [], timeDue := false, lastTime := s.now, timeSeq := 1, plcaOk := b.field 0 == 0,
    nodes := List.replicate 8 { lastAt := s.now } }) s

/-- PLCA of a follower port is lost, or returns (R445). -/
def plcaLost (n : Nat) (s : State) : State :=
  match s.fieldBlock n with
  | none => s
  | some b =>
    if b.field 0 != 0 && (s.port n).plcaOk then
      raiseAlarm 0x0B06 n 0 (setFp n (fun p => { p with plcaOk := false, plcaLosses := satAdd 65535 p.plcaLosses 1 }) s)
    else s

def plcaResumed (n : Nat) (s : State) : State :=
  if (s.fieldBlock n).isSome then setFp n (fun p => { p with plcaOk := true }) s else s

/-! ## SETPOINT_SEND (R454) -/

/-- SETPOINT_SEND on its item. -/
def setpointSendItem (it : Item) (j : Job) (s : State) : State × Option Result :=
  let n := Entry.param it.entry % 4
  let m := bits (Entry.param it.entry) 2 3
  match j.operandSpan it.entry 0 with
  | none => (s, some (done .refused 0x0105))
  | some sp =>
    let (s, gs) := readWords it.requester sp.key sp.len s
    if anyBad gs then (s, some poisonedResult)
    else (setFp n (fun p => { p with queue := p.queue ++ [.aux m (wordsBytes (gotData gs))] }) s, some (done))

/-! ## Reception (R455 to R457) -/

/-- A field of a received frame. -/
def frameField (f : List Byte) (at_ len : Nat) : Nat := ofBytes ((f.drop at_).take len)

/-- SEQ and payload position of a received frame. -/
def rxSeq (f : List Byte) : BitVec 16 := BitVec.ofNat 16 (frameField f 18 2)

/-- Position `k` of a feedback payload. -/
def rxPosition (f : List Byte) (k : Nat) : Int := signed 16 (frameField f (42 + 2 * k) 2)

/-- The joints of the channel that a DRIVE node is bound to, when its job is active and its Pattern can be read. -/
def channelJointsOf (ch : Nat) (s : State) : Option (List Joint) :=
  match s.activeJob, s.pat.active with
  | some (_, j), some p => (match j.channelBlock ch with
    | some b => (match (runProg (channelJoints { num := 76 } p b) s).2 with | .ok l => some l | .error _ => none)
    | none => none)
  | _, _ => none

/-- Check 4 of R455. -/
def rxHeader (f : List Byte) : Bool :=
  let len := frameField f 16 2
  42 ≤ f.length && frameField f 14 1 == 1 && 1 ≤ len && 42 + len ≤ f.length

/-- Check 5. -/
def rxPayloadCheck (f : List Byte) : Bool :=
  let n := 24 + frameField f 16 2
  crc32c ((f.drop 14).take n) == frameField f (14 + n) 4

/-- Check 6, for a node of a role bound to joints. -/
def rxKind (f : List Byte) (role : Nat) (joints : Option Nat) : Bool :=
  let j := frameField f 38 1
  frameField f 15 1 == 0x81 &&
    (if role == 1 then (match joints with | some n => j == n | none => 1 ≤ j && j ≤ 8) else 1 ≤ j && j ≤ 8) &&
    frameField f 16 2 == 4 + 2 * j && frameField f 20 1 == 0 && frameField f 21 1 == 0 && frameField f 22 6 == 0 &&
    frameField f 28 2 == 0 && frameField f 30 8 == 0

/-- Check 8. -/
def rxValues (f : List Byte) (role : Nat) (joints : Option (List Joint)) : Bool :=
  frameField f 39 1 < 4 &&
    (role != 1 || (match joints with
      | some l => ((List.range l.length).zip l).all fun (k, jt) => jt.min ≤ rxPosition f k && rxPosition f k ≤ jt.max
      | none => true))

/-- An event of a frame from node m of port n. -/
def fpEvent (code n m b value : Nat) (s : State) : State :=
  writeEvent { s.event code 76 with service := 1 + n, a := 256 * n + m, b := b, value := value } s

/-- A frame dropped with 0x0B03 at a check. -/
def dropRange (n m order value : Nat) (s : State) : State :=
  fpEvent 0x0B03 n m (0x8000 + order) value (setFp n (fun p => { p with range := satAdd 255 p.range 1 }) s)

/-- A sequence fault (R456). -/
def sequenceEvent (n m b value : Nat) (s : State) : State :=
  fpEvent 0x0B05 n m b value (setFp n (fun p => { p with sequence := satAdd 255 p.sequence 1 }) s)

/-- The lowest joint that deviates from the frame sent last by more than FB_TOL (R457). -/
def deviation (tol : Nat) (rel : Release) (f : List Byte) (s : State) : State × Option Nat :=
  match s.pat.active with
  | none => (s, none)
  | some p =>
    match runProg (getPartition { num := 76 } p rel.partition) s with
    | (s, .error _) => (s, none)
    | (s, .ok part) =>
      let m : Run (List Int) := do
        let pl ← placeAt { num := 76 } p (stopMotions rel.history) s.now s.now
        getPlace { num := 76 } p part.joints pl
      match runProg m s with
      | (s, .error _) => (s, none)
      | (s, .ok q) => (s, firstIndex (fun (x : Int × Nat) => tol < (x.1 - rxPosition f x.2).natAbs) (q.zip (List.range q.length)) 0)

/-- An accepted feedback frame (R457). -/
def acceptFeedback (n m : Nat) (d : NodeDef) (f : List Byte) (s : State) : State :=
  let last := (nth (s.port n).nodes m {}).lastSent
  let (s, dev) := match last with
    | some rel => if d.role == 1 && d.tol != 0 then deviation d.tol rel f s else (s, none)
    | none => (s, none)
  let s := setNode n m (fun x => { x with
    lastSeq := some (rxSeq f), status := frameField f 39 1, stale := false, deviation := dev.isSome, lastAt := s.now }) s
  let s := setFp n (fun p => { p with accepted := satAdd 65535 p.accepted 1 }) s
  match dev with
  | some k => fpEvent 0x0B03 n m k (rxSeq f).toNat (setFp n (fun p => { p with range := satAdd 255 p.range 1 }) s)
  | none => s

/-- Checks 7 and 8 of R455. -/
def receiveChecked (n m : Nat) (d : NodeDef) (f : List Byte) (s : State) : State :=
  let gap := match (nth (s.port n).nodes m {}).lastSeq with
    | some q => (rxSeq f - q).toNat
    | none => 1
  if gap == 0 || 32768 ≤ gap then sequenceEvent n m 1 gap s
  else if !rxValues f d.role (channelJointsOf d.channel s) then dropRange n m 8 (rxSeq f).toNat s
  else acceptFeedback n m d f (if gap == 1 then s else sequenceEvent n m 0 (gap - 1) s)

/-- A frame received on a port, without its FCS (R455). -/
def receiveFrame (n : Nat) (f : List Byte) (fcsOk : Bool) (s : State) : State :=
  match s.fieldBlock n with
  | none => s
  | some b =>
    if !fcsOk then setFp n (fun p => { p with fcsErrors := satAdd 255 p.fcsErrors 1 }) s
    else if ofBytes ((f.drop 12).take 2).reverse != b.field 5 then setFp n (fun p => { p with foreign := satAdd 65535 p.foreign 1 }) s
    else match nodeWith b fun d => (d.role == 1 || d.role == 3) && d.mac == frameField f 6 6 with
      | none => setFp n (fun p => { p with unknownSource := satAdd 255 p.unknownSource 1 }) s
      | some m =>
        let d := nodeDef b m
        if !rxHeader f then dropRange n m 4 0 s
        else if !rxPayloadCheck f then setFp n (fun p => { p with payloadCrc := satAdd 255 p.payloadCrc 1 }) s
        else if !rxKind f d.role ((channelJointsOf d.channel s).map (·.length)) then dropRange n m 6 (rxSeq f).toNat s
        else receiveChecked n m d f s

/-- The evaluation of a node's timeout at a multiple of 100 µs (R457). -/
def feedbackTimeout (n m : Nat) (s : State) : State :=
  match s.fieldBlock n with
  | none => s
  | some b =>
    let d := nodeDef b m
    let x := nth (s.port n).nodes m {}
    if s.now % 100000 == 0 && (d.role == 1 || d.role == 3) && !x.stale && x.lastAt + 1000000 * d.timeout ≤ s.now then
      raiseAlarm 0x0B04 (256 * n + m) 0 (setNode n m (fun x => { x with stale := true }) s)
    else s

end Sys2Proof.Machine
end

