-- ==== Sys2Proof/Machine/PeerLinks.lean ====
section
/-!
DEFINITION. Peer Links (file 17): training (R459), flits (R460 to R462), messages (R464 to R467) and the collectives (R468, R469).
A complete well-formed message takes effect by its own command; PL_FLIT_RECEIVE does the link's part (assumption log 16).
-/

namespace Sys2Proof.Machine

open Sys2Proof

/-! ## Links -/

/-- One Peer Link. -/
def State.peer (s : State) (n : Nat) : PeerLink := nth s.pl.links n {}

/-- Change one link. -/
def setPeer (n : Nat) (f : PeerLink → PeerLink) (s : State) : State := { s with pl.links := upd s.pl.links n f }

/-- PLn is in LINKS_EN (R470). -/
def State.peerEnabled (s : State) (n : Nat) : Bool := (s.devField 5 0 0).testBit n

/-- The links of a mask, in ascending number. -/
def maskLinks (m : Nat) : List Nat := (List.range 7).filter fun n => m.testBit n

/-! ## Transmission (R460 to R462, R464) -/

/-- Payload bytes of a flit. -/
def flitBytes : Nat := 236

/-- The VC of a message type (R464). -/
def messageVc (type : Nat) : Nat := match type with | 1 => 0 | 4 => 3 | 5 => 1 | _ => 2

/-- A message: header and body. -/
def messageBytes (type flags tag : Nat) (body : List Byte) : List Byte :=
  toBytes type 1 ++ toBytes flags 1 ++ toBytes 0 2 ++ toBytes body.length 4 ++ toBytes tag 4 ++ toBytes 0 4 ++ body

/-- The flits of a message; the number bounds them. -/
def messageFlits (vc : Nat) : Nat → Bool → List Byte → List TxFlit
  | 0, _, _ => []
  | n + 1, first, bs =>
    let rest := bs.drop flitBytes
    { vc := vc, start := first, last := rest.isEmpty, payload := bs.take flitBytes } ::
      (if rest.isEmpty then [] else messageFlits vc n false rest)

/-- The first VC, in strict priority, that has a flit and a credit (R462). -/
def PeerLink.nextVc (p : PeerLink) : Option Nat :=
  (List.range 4).find? fun v => !(nth p.waiting v []).isEmpty && nth p.credits v 0 != 0

/-- The 256 bytes of a flit on the wire (R460): its number, and the acknowledgement and NAK that go with it. -/
def TxFlit.bytes (f : TxFlit) (seq ack : BitVec 12) (nak : Bool) : List Byte :=
  let head := at_ f.vc 0 2 ||| at_ (b2n f.start) 2 1 ||| at_ (b2n f.last) 3 1 ||| at_ (b2n f.payload.isEmpty) 4 1 ||| at_ seq.toNat 16 12 |||
    at_ f.payload.length 36 8
  let tail := at_ ack.toNat 0 12 ||| at_ (b2n nak) 12 1 |||
    (List.range 4).foldl (fun n v => n ||| at_ (nth f.returned v 0) (16 + 8 * v) 8) 0
  let body := toBytes head 8 ++ f.payload ++ List.replicate (flitBytes - f.payload.length) 0 ++ toBytes tail 8
  body ++ toBytes (fcs body) 4

/-- Put a flit on the wire under the next FSEQ.  It returns at most 255 credits of a VC; the rest wait for the next. -/
def PeerLink.put (p : PeerLink) (f : TxFlit) : PeerLink :=
  let f := { f with returned := p.freed.map (min 255) }
  let old := p.replay ++ [(p.txSeq, f)]
  { p with
    lastFlit := f.bytes p.txSeq (p.rxSeq - 1) p.nakOut
    replay := old.drop (old.length - 128)
    txSeq := p.txSeq + 1
    nakOut := false
    freed := p.freed.map (· - 255) }

/-- Send the flit at the front of a VC, against a credit. -/
def PeerLink.sendFlit (p : PeerLink) (v : Nat) : PeerLink :=
  match nth p.waiting v [] with
  | [] => p
  | f :: t =>
    { p with waiting := upd p.waiting v fun _ => t, credits := upd p.credits v fun c => c - 1, txFlits := satAdd 4294967295 p.txFlits 1 }.put f

/-- A NULL flit: it fills idle time, carries ACK, NAK and CREDITS, and takes no credit (R460). -/
def nullFlit : TxFlit := { vc := 0, start := false, last := false, payload := [] }

/-- Send flits while a VC has one and a credit; the number bounds them. -/
def PeerLink.drain : Nat → PeerLink → PeerLink
  | 0, p => p
  | n + 1, p => match p.nextVc with
    | some v => PeerLink.drain n (p.sendFlit v)
    | none => p

/-- Flits that wait on a link. -/
def PeerLink.waitCount (p : PeerLink) : Nat := (p.waiting.map (·.length)).foldl (· + ·) 0

/-- Send what the credits allow, and a NULL flit where that is nothing: what the link has to return goes out at once (R460; DEDUCED, log 32). -/
def PeerLink.respond (p : PeerLink) : PeerLink :=
  let q := p.drain p.waitCount
  if q.waitCount == p.waitCount then q.put nullFlit else q

/-- Replay the flits kept, in order, under their own FSEQ (R461). -/
def PeerLink.resend (p : PeerLink) : PeerLink :=
  p.replay.foldl (fun p x => { p with lastFlit := x.2.bytes x.1 (p.rxSeq - 1) p.nakOut, nakOut := false }) p

/-- Queue a message on a link that is up, and send what its credits allow; a VC begins to wait for credit now. -/
def sendMessage (n type flags tag : Nat) (body : List Byte) (s : State) : State :=
  let vc := messageVc type
  let bytes := messageBytes type flags tag body
  if !(s.peer n).up then s
  else setPeer n (fun p =>
    let empty := (nth p.waiting vc []).isEmpty
    let p := { p with waiting := upd p.waiting vc (· ++ messageFlits vc bytes.length true bytes) }
    let p := { p with waitSince := if empty then upd p.waitSince vc fun _ => s.now else p.waitSince }
    p.drain p.waitCount) s

/-! ## Training and failure (R459, R461, R462) -/

/-- Messages that wait on a link. -/
def PeerLink.waitingMessages (p : PeerLink) : Nat := ((p.waiting.flatMap id).filter (·.last)).length

/-- A link comes up: sequence numbers, credits and buffers begin anew. -/
def linkUp (n : Nat) (far : FarEnd) (s : State) : State :=
  setPeer n (fun p => { p with
    up := true, farPos := far.position.val, retrainFails := 0, nakCount := 0, nakOut := false, txSeq := 0, rxSeq := 0,
    replay := [], waiting := [[], [], [], []], credits := [8, 64, 256, 64], partialMsg := [none, none, none, none], lineCount := 0,
    refusing := [false, false, false, false], freed := [0, 0, 0, 0], candPart := 0, candFlits := 0, held := [] }) s

/-- A link goes down: its queued messages are discarded and counted (R461). -/
def linkDown (n : Nat) (s : State) : State :=
  setPeer n (fun p => { p with
    up := false, downAt := s.now, retrainFails := 0, discarded := satAdd 255 p.discarded p.waitingMessages, waiting := [[], [], [], []],
    partialMsg := [none, none, none, none] }) s

/-- A retrain of a link that is up: it keeps its replay buffer. -/
def retrain (n : Nat) (s : State) : State :=
  setPeer n (fun p => { p with retrains := satAdd 255 p.retrains 1, nakCount := 0 }) s

/-- The far end that link n of a board position must report (R459). -/
def expectedFar (pos n : Nat) (far : FarEnd) : Bool := far.position.val == (pos + n + 1) % 8 && far.link.val + n == 6

/-- A training with a report of the far end, or with none. -/
def linkTraining (n : Nat) (far : Option FarEnd) (s : State) : State :=
  match far with
  | some f =>
    if expectedFar s.boardPos n f then
      if (s.peer n).up then setPeer n (fun p => { p with retrainFails := 0, farPos := f.position.val }) s else linkUp n f s
    else raiseAlarm 0x0B10 n f.position.val (setPeer n (fun p => { p with farPos := f.position.val }) (linkDown n s))
  | none =>
    if !(s.peer n).up then s
    else if (s.peer n).retrainFails + 1 < 3 then setPeer n (fun p => { p with retrainFails := p.retrainFails + 1 }) s
    else raiseAlarm 0x0B10 n 0 (linkDown n s)

/-- Four successive NAKs for one FSEQ (R461). -/
def retryLimit (n : Nat) (s : State) : State :=
  if (s.peer n).up && 4 ≤ (s.peer n).nakCount then retrain n (raiseAlarm 0x0B11 0 0 s) else s

/-- The retry of training of a link that is down, every 10 ms (R461). -/
def retrainRetry (n : Nat) (far : Option FarEnd) (s : State) : State :=
  let p := s.peer n
  if p.up || s.now ≤ p.downAt || (s.now - p.downAt) % 10000000 != 0 then s
  else linkTraining n far (setPeer n (fun p => { p with retrains := satAdd 255 p.retrains 1 }) s)

/-- A VC has waited 100 µs for credit (R462). -/
def creditTimeout (n v : Nat) (s : State) : State :=
  let p := s.peer n
  if p.up && !(nth p.waiting v []).isEmpty && nth p.credits v 0 == 0 && nth p.waitSince v 0 + 100000 ≤ s.now then
    let s := retrain n (raiseAlarm 0x0B13 0 0 s)
    setPeer n (fun p => { p with waitSince := upd p.waitSince v fun _ => s.now }) s
  else s

/-! ## Reception of flits (R460 to R462, R464) -/

/-- Words of a candidate list that an inbox takes: 1 + 10 K, with K of the enabled channel that the list's header names, else the largest K of R201
(R201, R468; log 41). -/
def State.candWords (s : State) (header : Nat) : Nat :=
  match s.activeJob with
  | some (_, j) => match j.channelBlock (bits header 40 4) with
    | some b => listWords (b.field 7)
    | none => listWords 16
  | none => listWords 16

/-- A complete message is malformed: its LENGTH disagrees with its flits, its TYPE is unknown, a field that the form fixes differs, or a count
in it disagrees with its length or exceeds what the receiver holds (R83, R464, R466); `cand` gives the words of the inbox for a list's header. -/
def malformed (cand : Nat → Nat) (bs : List Byte) : Bool :=
  let type := ofBytes (bs.take 1)
  let len := ofBytes ((bs.drop 4).take 4)
  bs.length < 16 || len + 16 != bs.length || type == 0 || 6 < type || ofBytes ((bs.drop 2).take 2) != 0 ||
    ofBytes ((bs.drop 12).take 4) != 0 || (type == 1 && len != 24) || (type == 3 && len != 0) || (type == 6 && len != 20) ||
    (type == 2 && (len != 16 + 4 * ofBytes ((bs.drop 16).take 4) || 65536 < ofBytes ((bs.drop 16).take 4))) ||
    (type == 4 && len % 36 != 0) || (type == 5 && (len == 0 || len % 32 != 0 || 32 * cand (ofBytes ((bs.drop 16).take 32)) < len)) ||
    18874368 < len

/-- Return the credits of a received flit; a VC that receives credit waits anew (R462). -/
def takeCredits (credits : BitVec 32) (now : Nat) (p : PeerLink) : PeerLink :=
  let back (v : Nat) : Nat := bits credits.toNat (8 * v) 8
  { p with
    credits := (List.range 4).map fun v => nth p.credits v 0 + back v
    waitSince := (List.range 4).map fun v => if back v == 0 then nth p.waitSince v 0 else now }

/-- The ACK and NAK of a flit received in order: acknowledged flits leave the replay buffer, a NAK replays what follows (R461). -/
def takeAck (f : Flit) (p : PeerLink) : PeerLink :=
  let p := { p with replay := p.replay.filter fun x => (x.1 - f.ack - 1).toNat < 2048 }
  if f.nak then
    let same := p.nakSeq == f.ack && p.nakCount != 0
    { p with nakSeq := f.ack, nakCount := if same then p.nakCount + 1 else 1, replays := satAdd 65535 p.replays 1 }.resend
  else { p with nakCount := 0 }

/-- The flits of VC 1 that hold an arriving CAND are freed. -/
def PeerLink.freePart (p : PeerLink) : PeerLink := { p with freed := upd p.freed 1 (· + p.candPart), candPart := 0 }

/-- The message that arrives on a VC is refused whole and counted, with what is still to come of it (R464). -/
def PeerLink.refuseMessage (p : PeerLink) (v : Nat) (last : Bool) : PeerLink :=
  let p := if v == 1 then p.freePart else p
  { p with
    malformed := satAdd 255 p.malformed 1
    partialMsg := upd p.partialMsg v fun _ => none
    refusing := upd p.refusing v fun _ => !last }

/-- The fields of a flit are those of R460: USED of 1 to 236 bytes, 0 in a NULL flit, and zeros where it gives zeros. -/
def flitFieldsOk (f : Flit) : Bool := f.zeros && (if f.null then f.used == 0 else 1 ≤ f.used.toNat && f.used.toNat ≤ flitBytes)

/-- The USED bytes of a flit. -/
def flitPayload (f : Flit) : List Byte := (f.payload ++ List.replicate flitBytes 0).take f.used.toNat

/-- An accepted flit takes a place in its buffer: one of VC 1 keeps it until its list is placed or discarded (R462, R469). -/
def PeerLink.bufferFlit (p : PeerLink) (v : Nat) : PeerLink :=
  let p := { p with rxFlits := satAdd 4294967295 p.rxFlits 1 }
  if v == 1 then { p with candPart := p.candPart + 1 } else { p with freed := upd p.freed v (· + 1) }

/-- A message is complete: its VC waits for the next, and the flits of a CAND hold it. -/
def PeerLink.endMessage (p : PeerLink) (v : Nat) : PeerLink :=
  let p := { p with partialMsg := upd p.partialMsg v fun _ => none, refusing := upd p.refusing v fun _ => false }
  if v == 1 then { p with candFlits := p.candFlits + p.candPart, candPart := 0 } else p

/-- The payload of an accepted flit joins its message; a malformed message is refused whole and counted once.  A flit whose fields R460 does not
allow refuses its message (DESIGN CHOICE, log 90). -/
def takePayload (cand : Nat → Nat) (f : Flit) (p : PeerLink) : PeerLink :=
  let v := f.vc.val
  let old := nth p.partialMsg v none
  let p := if f.start && old.isSome then p.refuseMessage v true else p
  let p := p.bufferFlit v
  if !f.start && old.isNone && nth p.refusing v false then
    let p := if v == 1 then p.freePart else p
    { p with refusing := upd p.refusing v fun _ => !f.last }
  else if !flitFieldsOk f || (!f.start && old.isNone) then p.refuseMessage v f.last
  else
    let bs := (if f.start then [] else old.getD []) ++ flitPayload f
    if f.last then (if malformed cand bs then p.refuseMessage v true else p.endMessage v)
    else { p with partialMsg := upd p.partialMsg v fun _ => some bs }

/-- A flit is discarded: the link answers with NAK (R461). -/
def PeerLink.discardFlit (p : PeerLink) : PeerLink := { p with nakOut := true }.respond

/-- A flit in order: its ACK, NAK and CREDITS, and its payload.  A NULL flit whose fields R460 does not allow is counted as a malformed message
(DESIGN CHOICE, log 90). -/
def PeerLink.acceptFlit (p : PeerLink) (cand : Nat → Nat) (f : Flit) (now : Nat) : PeerLink :=
  let p := takeAck f (takeCredits f.credits now { p with rxSeq := p.rxSeq + 1 })
  let p := if !f.null then takePayload cand f p else if flitFieldsOk f then p else { p with malformed := satAdd 255 p.malformed 1 }
  p.respond

/-- A flit arrives on a link. -/
def receiveFlit (n : Nat) (f : Flit) (s : State) : State :=
  if !(s.peer n).up then s
  else if !f.crcOk then setPeer n (fun p => { p with crcErrors := satAdd 65535 p.crcErrors 1 }.discardFlit) s
  else setPeer n (fun p => if f.fseq != p.rxSeq then p.discardFlit else p.acceptFlit s.candWords f s.now) s

/-! ## Line distribution (R58, R465) -/

/-- The LINE body. -/
def lineBody (g : Nat) (m v : LinePos) (st : LineState) (reverse : Bool) (count : BitVec 16) : List Byte :=
  toBytes g 8 ++ toBytes m.toNat 6 ++ toBytes v.toNat 6 ++ toBytes (lineCode st + 4 * b2n reverse) 1 ++ toBytes 0 1 ++ toBytes count.toNat 2

/-- Send a sample on every enabled link that is up. -/
def sendLine (x : LineSample) (s : State) : State :=
  (List.range 7).foldl (fun s n =>
    if s.peerEnabled n && (s.peer n).up then
      let body := lineBody x.g x.m x.v x.st x.reverse (s.peer n).lineCount
      setPeer n (fun p => { p with lineCount := p.lineCount + 1 }) (sendMessage n 1 0 0 body s)
    else s) s

/-! ## Occupancy messages (R466, R468) -/

/-- Full state as seen by link n: every non-zero masked word of INJ or occupancy in slices Tc to Tc + 15, and whether a word read was poisoned. -/
def fullStateEntries (c : OccCtx) (maskAt : Nat) : List (Nat × Nat) → State → State × List FullEntry × Bool
  | [], s => (s, [], false)
  | (t, i) :: l, s =>
    let (s, m) := layerWord c (maskAt + i) s
    let (s, a) := layerWord c (c.injAt t i) s
    let (s, b) := openWord c t i s
    let w := match m, a, b with | some m, some a, some b => some ((a ||| b) &&& m) | _, _, _ => none
    let (s, es, bad) := fullStateEntries c maskAt l s
    match w with
    | none => (s, es, true)
    | some 0 => (s, es, bad)
    | some w => (s, ⟨BitVec.ofNat 8 t, BitVec.ofNat 16 i, word w⟩ :: es, bad)

/-- The bytes of an entry. -/
def fullEntryBytes (e : FullEntry) : List Byte :=
  toBytes e.sliceTag.toNat 1 ++ toBytes 0 1 ++ toBytes e.wordIndex.toNat 2 ++ wordBytes e.word

/-- The full state by the export mask at a key: the body of its message, and whether a word read was poisoned. -/
def fullStateBody (c : OccCtx) (maskAt : Nat) (s : State) : State × List Byte × Bool :=
  let places := (List.range 16).flatMap fun d => (List.range sliceWords).map fun i => (s.occ.tc + d, i)
  let (s, es, bad) := fullStateEntries c maskAt places s
  (s, es.flatMap fullEntryBytes, bad)

/-- Send a FULL_STATE. -/
def sendFullState (link : Nat) (body : List Byte) (s : State) : State := sendMessage link 4 0 (s.occ.tc % 4294967296) body s

/-- A FULL_STATE_REQ is answered by the export mask of the most recent DELTA_BROADCAST (R466).  A word that cannot be read goes as zero, and the open
epoch is marked REBUILD for it (R192; DEDUCED, log 41). -/
def answerFullState (link : Nat) (s : State) : State :=
  match s.occCtx, s.occ.exportAt with
  | some c, some at_ =>
    let s := catchUp c s
    if 32768 * (link + 1) ≤ s.occ.exportWords then
      let (s, body, _) := fullStateBody c (at_ + 32768 * link) s
      sendFullState link body s
    else sendFullState link [] s
  | _, _ => s

/-- A DELTA message: its records, and the request for full state when records resume (R172, R466). -/
def deltaMessage (link : Nat) (records : List (BitVec 32)) (s : State) : State :=
  match s.occCtx with
  | none => s
  | some c =>
    if !(s.peerEnabled link && c.hasPeer link) then s
    else
      let resumed := s.occ.peerForced.getLsbD link && s.occ.peerTimeout.getLsbD link
      let s := peerHeard link (injectFirst c (catchUp c s))
      let s := records.foldl (fun s r => peerRecord c link r.toNat s) s
      if resumed then sendMessage link 3 0 0 [] s else s

/-- A FULL_STATE message of the sender's slice `tag`. -/
def fullStateMessage (link tag : Nat) (es : List FullEntry) (s : State) : State :=
  match s.occCtx with
  | none => s
  | some c => if s.peerEnabled link && c.hasPeer link then applyFullState c link tag es s else s

/-- Split records into messages of at most 65,536, each but the last marked MORE. -/
def sendDelta (link epoch : Nat) : Nat → List Nat → State → State
  | 0, _, s => s
  | n + 1, rs, s =>
    let now := rs.take 65536
    let rest := rs.drop 65536
    let body := toBytes now.length 4 ++ toBytes (b2n !rest.isEmpty) 1 ++ toBytes 0 11 ++ now.flatMap fun r => toBytes r 4
    let s := sendMessage link 2 0 epoch body s
    if rest.isEmpty then s else sendDelta link epoch n rest s

/-- The entries of a committed epoch's log in the log words listed; each word is read once. -/
def logEntries (r : Requester) (c : OccCtx) (e : Epoch) : List Nat → Run (List Nat)
  | [] => pure []
  | i :: t => do
    let w ← getWord r (c.logAt e.log i)
    let l ← logEntries r c e t
    pure ((List.range (min 8 (e.fill - 8 * i))).map (fun n => bits w (32 * n) 32) ++ l)

/-- The entries whose voxel is set in an export mask. -/
def exported (r : Requester) (maskAt : Nat) : List Nat → Run (List Nat)
  | [] => pure []
  | x :: t => do
    let m ← getWord r (maskAt + bits x 0 23 / 256)
    let l ← exported r maskAt t
    pure (if m.testBit (bits x 0 23 % 256) then x :: l else l)

/-- The export mask of a link shares no voxel with the link's authority mask (R468).  The masks are contents of operands, which R84 has checked when the
item starts and never at the arm (log 45). -/
def masksApart (r : Requester) (maskAt authAt : Nat) : List Nat → Run Unit
  | [] => pure ()
  | i :: t => do
    let m ← getWord r (maskAt + i)
    let a ← getWord r (authAt + i)
    ensure (m &&& a == 0) 0x0114
    masksApart r maskAt authAt t

/-- What a DELTA_BROADCAST sends on one link: the full state, or the entries of the epoch that pass its mask. -/
def broadcastOf (r : Requester) (c : OccCtx) (e : Epoch) (maskAt : Nat) (entries : List Nat) : Run (List Byte ⊕ List Nat) := do
  if e.rebuild then
    let (body, bad) ← stateOp fun s => fullStateBody c maskAt s
    if bad then poisoned
    pure (.inl body)
  else
    let rs ← exported r maskAt entries
    pure (.inr rs)

/-- Send it. -/
def sendBroadcast (e : Epoch) (link : Nat) (x : List Byte ⊕ List Nat) (s : State) : State :=
  match x with
  | .inl body => sendFullState link body s
  | .inr rs => sendDelta link e.number.toNat (rs.length + 1) rs s

/-- LINKS of a PEER_COLLECTIVE's PARAM. -/
def collectiveLinks (it : Item) : List Nat := maskLinks (bits (Entry.param it.entry) 4 7)

/-- The links of a list that are down, as a mask. -/
def State.linksDown (s : State) (ls : List Nat) : Nat := (ls.filter fun n => !(s.peer n).up).foldl (fun a n => a + 2 ^ n) 0

/-- DELTA_BROADCAST on its item. -/
def deltaBroadcastItem (it : Item) (j : Job) (s : State) : State × Option Result :=
  match j.operandSpan it.entry 0, s.occCtx, s.occ.committed with
  | some sp, some c, some e =>
    let links := collectiveLinks it
    itemProg (do
      links.forM fun n => masksApart it.requester (sp.key + 32768 * n) (c.authAt n 0) (List.range 32768)
      change fun s => { s with occ.exportAt := some sp.key, occ.exportWords := sp.len }
      change (catchUp c)
      let es ← if e.rebuild then pure [] else logEntries it.requester c e (List.range (ceilDiv e.fill 8))
      let xs ← links.mapM fun n => do
        let x ← broadcastOf it.requester c e (sp.key + 32768 * n) es
        pure (n, x)
      change fun s => xs.foldl (fun s x => sendBroadcast e x.1 x.2 s) s
      let s ← get
      pure (done .ok 0 (s.linksDown links))) s
  | _, _, _ => (s, some (done))

/-! ## Candidate exchange (R468, R469) -/

/-- Words of a candidate list of an item's channel. -/
def Job.listLen (j : Job) (it : Item) : Nat := listWords (((j.itemChannel it).map (·.field 7)).getD 0)

/-- CAND_SEND on its item. -/
def candSendItem (it : Item) (j : Job) (s : State) : State × Option Result :=
  match j.operandSpan it.entry 0 with
  | none => (s, some (done))
  | some sp =>
    let (s, gs) := readWords it.requester sp.key (min (j.listLen it) sp.len) s
    if anyBad gs then (s, some poisonedResult)
    else
      let body := wordsBytes (gotData gs)
      ((collectiveLinks it).foldl (fun s n => sendMessage n 5 0 it.tag.toNat body s) s, some (done))

/-- A tag is older than another (R94). -/
def tagOlder (a b : Reg) : Bool := let d : Nat := (b - a).toNat; 1 ≤ d && d < 2147483648

/-- The local header with COUNT 0, and empty records. -/
def emptyList (k : Nat) (header : Word) : List Word := word (setBits header.toNat 32 5 0) :: List.replicate (10 * k) 0

/-- The gather that waits for a link's list. -/
def State.gatherOn (s : State) (link : Nat) : Option Gather := s.pl.gathers.find? fun g => g.links.contains link

/-- Change the gather of an item. -/
def setGather (item : Nat) (f : Gather → Gather) (s : State) : State :=
  { s with pl.gathers := s.pl.gathers.map fun g => if g.item == item then f g else g }

/-- Write a list as an input of the inbox, with its digest and its signal to DELIVERY_SYNC; the words after the list's own are zero. -/
def placeInput (it : Item) (j : Job) (input : Nat) (gs : List Got) (signal : Bool) (s : State) : State :=
  let len := j.listLen it
  let gs := (gs ++ clean (List.replicate len 0)).take len
  let (s, d) := writeOut j it 1 (input * len) gs s
  let s := setGather it.id (fun g => { g with digest := m64 (g.digest + d) }) s
  let obj := bits (Entry.param it.entry) 11 16
  if signal && obj != 0 then sendSignal (it.signal obj 1) s else s

/-- Is a list one that a gather takes: its tag, its channel and at most K candidates? -/
def gatherTakes (g : Gather) (k : Nat) (tag : Reg) (list : List Word) : Bool :=
  let h := (nth list 0 0).toNat
  tag == g.tag && bits h 40 4 == g.channel && bits h 32 5 ≤ k

/-- Flits of VC 1 that a CAND with a list takes (R464). -/
def listFlits (list : List Word) : Nat := ceilDiv (16 + 32 * list.length) flitBytes

/-- A list has been placed or discarded: its flits are free, and the link returns their credits (R460, R462). -/
def freeList (link : Nat) (list : List Word) (s : State) : State :=
  setPeer link (fun p =>
    let n := min (listFlits list) p.candFlits
    if p.up && n != 0 then { p with candFlits := p.candFlits - n, freed := upd p.freed 1 (· + n) }.respond else p) s

/-- The held lists of every link that are older than a gather already run are discarded (R469). -/
def dropOlder (tag : Reg) (s : State) : State :=
  (List.range 7).foldl (fun s n =>
    let held := (s.peer n).held
    let old := held.filter fun x => tagOlder x.tag tag
    if old.isEmpty then s
    else
      let s := setPeer n (fun p => { p with held := held.filter fun x => !tagOlder x.tag tag }) s
      old.foldl (fun s x => freeList n x.list s) s) s

/-- A gather has run: it is remembered, and lists older than it are held no longer. -/
def gatherRun (g : Gather) (s : State) : State :=
  dropOlder g.tag { s with
    pl.gathers := s.pl.gathers.filter (·.item != g.item)
    pl.ranGathers := ((g.channel, g.tag) :: s.pl.ranGathers).take 64 }

/-- The links whose lists a gather misses, as a mask. -/
def Gather.missMask (g : Gather) : Nat := g.missing.foldl (fun a n => a + 2 ^ n) 0

/-- Complete the gather of an item: OK with the missing links and the lists discarded. -/
def endGather (g : Gather) (s : State) : State := setResult g.item (done .ok 0 g.missMask g.discarded g.digest) (gatherRun g s)

/-- Complete a gather whose inputs are all written. -/
def endIfComplete (item : Nat) (s : State) : State :=
  match s.pl.gathers.find? (·.item == item) with
  | some g => if g.missing.isEmpty then endGather g s else s
  | none => s

/-- A list from a link of a waiting gather that the gather takes. -/
def placeList (it : Item) (j : Job) (g : Gather) (link : Nat) (list : List Word) (s : State) : State :=
  let rank := (g.links.filter (· < link)).length
  let s := freeList link list (placeInput it j (1 + rank) (clean list) true s)
  setGather it.id (fun g => { g with missing := g.missing.filter (· != link) }) s

/-- Count a list discarded by a gather. -/
def discardList (item link : Nat) (list : List Word) (s : State) : State :=
  freeList link list (setGather item (fun g => { g with discarded := satAdd 65535 g.discarded 1 }) s)

/-- Keep a list that arrives before its gather, in the 64 flits of VC 1.  Credits let no peer send a list that finds no room, and a command that offers
one changes nothing (R462; DESIGN CHOICE, log 91). -/
def holdList (link : Nat) (tag : Reg) (list : List Word) (s : State) : State :=
  let used := ((s.peer link).held.map fun x => listFlits x.list).foldl (· + ·) 0
  if 64 < used + listFlits list then s else setPeer link (fun p => { p with held := p.held ++ [⟨tag, list⟩] }) s

/-- A gather of a channel at a tag, with a link among its LINKS, has still to run: an enabled channel of the active job has it in a list (R469,
log 41). -/
def State.gatherComes (s : State) (link ch : Nat) (tag : Reg) : Bool :=
  !s.pl.ranGathers.contains (ch, tag) && match s.activeJob with
  | some (_, j) => (match j.channelBlock ch with
    | some b => j.lists.any fun l => l.service == b.service &&
        l.entries.any fun e => Entry.op e == 0x0B03 && bits (Entry.param e) 0 4 == 2 && (Entry.param e).testBit (4 + link)
    | none => false)
  | none => false

/-- Offer a list to the gather of an item.  The gather takes it; or it is discarded and counted, for an older tag, or at the gather's tag for a COUNT
above K or for a channel of which no gather has still to run; or it is kept for its own gather. -/
def offerList (it : Item) (j : Job) (g : Gather) (link : Nat) (tag : Reg) (list : List Word) (s : State) : State :=
  let k := ((j.itemChannel it).map (·.field 7)).getD 0
  let h := (nth list 0 0).toNat
  if g.missing.contains link && gatherTakes g k tag list then placeList it j g link list s
  else if tagOlder tag g.tag || (tag == g.tag && (bits h 40 4 == g.channel || !s.gatherComes link (bits h 40 4) tag)) then discardList it.id link list s
  else holdList link tag list s

/-- A gather on the channel of a list has run already at its tag or a later one. -/
def State.gatherPast (s : State) (tag : Reg) (list : List Word) : Bool :=
  let ch := bits (nth list 0 0).toNat 40 4
  s.pl.ranGathers.any fun (c, t) => tagOlder tag t || (c == ch && t == tag)

/-- A CAND message (R469); one longer than the inbox input that it is for is refused whole and counted (R464). -/
def candMessage (link : Nat) (tag : Reg) (list : List Word) (s : State) : State :=
  if !s.peerEnabled link then freeList link list s
  else if s.candWords (nth list 0 0).toNat < list.length then
    freeList link list (setPeer link (fun p => { p with malformed := satAdd 255 p.malformed 1 }) s)
  else match s.gatherOn link with
    | some g => (match s.runningItem g.item 0x0B03 with
      | some (it, j) => endIfComplete it.id (offerList it j g link tag list s)
      | none => s)
    | none => if s.gatherPast tag list then freeList link list s else holdList link tag list s

/-- Offer the lists held on a link to a gather that starts. -/
def offerHeld (it : Item) (j : Job) (link : Nat) (s : State) : State :=
  let held := (s.peer link).held
  let s := setPeer link (fun p => { p with held := [] }) s
  held.foldl (fun s x => match s.pl.gathers.find? (·.item == it.id) with
    | some g => offerList it j g link x.tag x.list s
    | none => s) s

/-- CAND_GATHER on its item. -/
def candGatherItem (it : Item) (j : Job) (s : State) : State × Option Result :=
  if s.pl.gathers.any (·.item == it.id) then (s, none) else
  match j.operandSpan it.entry 0, j.itemChannel it with
  | some sp, some b =>
    let (s, gs) := readWords it.requester sp.key (min (j.listLen it) sp.len) s
    if anyBad gs then poisonOut j it 1 ((1 + (collectiveLinks it).length) * j.listLen it) s
    else
      let links := collectiveLinks it
      let ws := gotData gs
      let g : Gather :=
        { item := it.id, tag := it.tag, channel := b.field 0, links := links, missing := links, discarded := 0,
          limit := it.started + 1000 * s.devField 5 1 40, digest := 0 }
      let s := placeInput it j 0 (clean ws) false { s with pl.gathers := s.pl.gathers ++ [g] }
      let s := links.foldl (fun s n => sendMessage n 5 0 it.tag.toNat (wordsBytes ws) s) s
      let s := links.foldl (fun s n => offerHeld it j n s) s
      match s.pl.gathers.find? (·.item == it.id) with
      | some g =>
        if g.missing.isEmpty then
          (gatherRun g s, some (done .ok 0 0 g.discarded g.digest))
        else (s, none)
      | none => (s, some (done))
  | _, _ => (s, some (done .refused 0x0105))

/-- GATHER_LIMIT of a waiting gather: its missing inputs are written as the local header with COUNT 0 (R469), and as poison where that header cannot be
read (R399). -/
def gatherLimit (id : Nat) (s : State) : State :=
  match s.pl.gathers.find? (·.item == id), s.runningItem id 0x0B03 with
  | some g, some (it, j) =>
    if s.now < g.limit then s
    else
      match j.operandSpan it.entry 1, j.itemChannel it with
      | some sp, some b =>
        let (s, h) := readWord it.requester sp.key s
        let s := g.missing.foldl (fun s n =>
          placeInput it j (1 + (g.links.filter (· < n)).length)
            (if h.bad then poisonGots (j.listLen it) else clean (emptyList (b.field 7) h.data)) false s) s
        (match s.pl.gathers.find? (·.item == id) with
         | some g => if h.bad then setResult id (poisonedResult g.digest) (gatherRun g s) else endGather g s
         | none => s)
      | _, _ => s
  | _, _ => s

/-! ## CONFIG (R467) -/

/-- The CONFIG body of this device. -/
def configBody (c : OccCtx) (sig : BitVec 64) : List Byte :=
  toBytes c.period 4 ++ toBytes c.phase 4 ++ toBytes (c.block.field 0) 4 ++ toBytes sig.toNat 8

/-- A CONFIG message from a peer is kept for the arm that waits for it. -/
def keepConfig (link : Nat) (period phase pitch : BitVec 32) (sig : BitVec 64) (s : State) : State :=
  if s.peerEnabled link then setPeer link (fun p => { p with config := some ⟨period.toNat, phase.toNat, pitch.toNat, sig⟩ }) s else s

end Sys2Proof.Machine
end

