-- ==== Sys2Proof/Machine/Cycle.lean ====
section
/-!
DEFINITION. The firing pass of a Line Tick (R48 to R51), the control cycle (R15 to R21), the application of signals (R98), launch
(R57, R93), the wait limit (R102), the release deadline (R21, R112) and the items of the Shuttle, the Line Timer and the commit.
-/

namespace Sys2Proof.Machine

open Sys2Proof

/-! ## The control cycle (R15 to R21, R364, R489) -/

/-- Enabled PLANNING_CHANNEL blocks of a job, in ascending channel number. -/
def Job.channelBlocks (j : Job) : List Block :=
  sortBy (fun a b => a.field 0 < b.field 0) (j.enabledBlocks.filter (·.serviceType == 0x11))

/-- A priority map that waits comes into force. -/
def PriorityMap.takeNext (m : PriorityMap) : PriorityMap :=
  match m.next with
  | some v => { m with current := some v, next := none }
  | none => m

/-- A goal that waits takes effect in the cycle of a tag. -/
def Channel.takeGoal (tag : Reg) (c : Channel) : Channel :=
  match c.pendingGoal with
  | some g => { c with goal := g, pendingGoal := none, goalTag := some tag }
  | none => c

/-- Goals and priority maps that wait take effect (R20, R489). -/
def takeWaiting (slot : Nat) (tag : Reg) (s : State) : State :=
  let s := { s with chans := s.chans.map (Channel.takeGoal tag) }
  s.setJob slot fun j => { j with priorities := j.priorities.map PriorityMap.takeNext }

/-- Step 1 of the latest cycle, once, by an item that carries the cycle's tag (R18, R20). -/
def stepOne (slot : Nat) (tag : Reg) (s : State) : State :=
  match s.shu.cycles with
  | c :: t => if c.tag == tag && !c.stepped then takeWaiting slot tag { s with shu.cycles := { c with stepped := true } :: t } else s
  | [] => s

/-- A list of the job holds EPOCH_COMMIT, the work of step 1 (R18). -/
def Job.commits (j : Job) : Bool := j.lists.any fun l => l.entries.any fun e => Entry.op e == 0x0301

/-- The control-cycle entry fires: a cycle starts, and in Safe-Hold every enabled channel is held for it (R15, R364, R365).  Step 1 is the work of
the cycle's EPOCH_COMMIT; in a job whose lists hold none it comes with the firing (DESIGN CHOICE, log 62). -/
def cycleFired (key : LinePos) (s : State) : State :=
  match s.runningJob with
  | none => s
  | some (slot, j) =>
    let cyc : Cycle := { tag := key.setWidth 32, gFire := s.now, key := key }
    let s := { s with shu.cycles := (cyc :: s.shu.cycles).take 32, shu.firings := s.shu.firings + 1 }
    let s := if j.commits then s else stepOne slot cyc.tag s
    if s.smState == 2 then j.channelBlocks.foldl (fun s b => (holdChannel j b cyc 0x0906 true s).1) s else s

/-! ## The firing pass (R48 to R50) -/

/-- The entry of list `n` is the control-cycle entry of the running job (R17). -/
def State.isCycleEntry (s : State) (n : Nat) (e : DelayEntry) : Bool :=
  match s.runningJob with
  | some (_, j) => (match j.blockOf 0x10 with
    | some b => e.tag == serviceTag 0x10 && b.field 0 == n
    | none => false)
  | none => false

/-- What the firing of an entry of list `n` delivers (R50). -/
def deliverFiring (n : Nat) (e : DelayEntry) (s : State) : State :=
  let s : State := if e.late then { s with line.lateFirings := satAdd 65535 s.line.lateFirings 1 } else s
  if e.event then
    let tag := e.tag.toNat
    let x : Event := { s.event 0x0000 0xFC with job := s.refJob e.owner, service := e.owner.service, a := bits tag 0 16,
                                                b := bits tag 16 16, lpos := e.key.toNat, late := e.late }
    writeEvent x s
  else
    let s := sendSignal { obj := e.syncObj, inc := 1, tag := e.key.setWidth 32, sheet := none, golden := false,
                          firing := some ⟨e.key, s.now, e.late⟩, item := none } s
    if s.isCycleEntry n e then cycleFired e.key s else s

/-- Fire one entry of a list: it leaves the list, and a periodic one is inserted again at KEY + PERIOD (R50). -/
def fireEntry (n : Nat) (e : DelayEntry) (s : State) : State :=
  let s := { s with line.lists := upd s.line.lists n (·.filter (·.tag != e.tag)) }
  let s := deliverFiring n e s
  if e.period == 0 then s
  else
    let key := e.key + e.period.setWidth 48
    { s with line.lists := upd s.line.lists n (· ++ [{ e with key := key, late := keyDue key (s.listPos n) }]) }

/-- The due entries of the lists that tick, in the order of R48. -/
def State.dueEntries (s : State) : List (Nat × DelayEntry) :=
  let all := (List.range 4).flatMap fun n =>
    if nth s.line.tickDue n false then ((s.delayList n).filter fun e => keyDue e.key (s.listPos n)).map fun e => (n, e) else []
  sortBy (fun a b => keyAhead b.2.key a.2.key) all

/-- A Line Tick: every due entry of the lists that tick fires (R48). -/
def linePass (s : State) : State :=
  if !s.line.tickDue.any id then s
  else
    let due := s.dueEntries
    let s := { s with line.tickDue := [false, false, false, false] }
    due.foldl (fun s (n, e) => fireEntry n e s) s

/-! ## Signals (R97, R98) -/

/-- One firing of a sync object: waiters, the release instant of a sheet, and the list it triggers (R98, R337). -/
def fireObject (o : SyncObj) (m : SignalMsg) (s : State) : State :=
  let s := releaseWaiters o.obj s
  match s.activeJob with
  | none => s
  | some (_, j) =>
    let s := match j.sheetBlock, m.firing with
      | some b, some f => if b.field 8 == o.obj then sheetRelease j b (BitVec.ofNat 32 (f.key.toNat / 65536)) s else s
      | _, _ => s
    if o.trigger then { s with shu.triggerings := s.shu.triggerings ++ [triggeringOf o m j] } else s

/-- `n` firings of an object. -/
def fireTimes (o : SyncObj) (m : SignalMsg) : Nat → State → State
  | 0, s => s
  | n + 1, s => fireTimes o m n (fireObject o m s)

/-- Change the count of a sync object. -/
def setCount (obj count : Nat) (s : State) : State :=
  { s with shu.syncs := s.shu.syncs.map fun o => if o.obj == obj then { o with count := count } else o }

/-- Apply a signal (R98). -/
def applySignal (m : SignalMsg) (s : State) : State :=
  let s := match s.shu.syncs.find? (·.obj == m.obj) with
    | none => s
    | some o =>
      let total := o.count + m.inc
      fireTimes o m (total / o.threshold) (setCount o.obj (total % o.threshold) s)
  match m.item with
  | some id => completeItem id done s
  | none => s

/-- Apply the signal that has waited longest (R97). -/
def signalApply (s : State) : State :=
  match s.shu.signals with
  | [] => s
  | m :: t => applySignal m { s with shu.signals := t }

/-- Admit or refuse the triggering that has waited longest (R108). -/
def listTriggering (s : State) : State :=
  match s.shu.triggerings with
  | [] => s
  | t :: ts => startList false t { s with shu.triggerings := ts }

/-! ## Limits (R21, R102, R112) -/

/-- The Global Counter value at which a waiting item expires (R102). -/
def Item.expiry (it : Item) : Nat := 1000 * ceilDiv (it.admitted + 1000 * it.limit) 1000

/-- A wait limit expires (R102). -/
def waitExpiry (id : Nat) (s : State) : State :=
  match s.item? id with
  | none => s
  | some it =>
    if it.phase == .waiting && it.expiry ≤ s.now then
      cancelItem id (done .timeout 0x0205) { s with shu.timeouts := satAdd 4294967295 s.shu.timeouts 1 }
    else s

/-- The release deadline of a channel in a cycle: its outstanding work is aborted, and the channel held if not released. -/
def deadlineOf (j : Job) (b : Block) (cyc : Cycle) (s : State) : State :=
  let r := done .aborted 0x0206
  let mine (it : Item) : Bool := it.jobId == j.id && it.service == b.service && it.tag == cyc.tag
  let s := cancelWhere mine r s
  let s := (s.shu.items.filter fun it => mine it && it.phase == .running).foldl (fun s it => abortRunning it.id r s) s
  (holdChannel j b cyc 0x0206 false s).1

/-- The release deadline of a channel in a cycle is over. -/
def passDeadline (ch : Nat) (tag : Reg) (s : State) : State :=
  { s with shu.cycles := s.shu.cycles.map fun c => if c.tag == tag then { c with passed := c.passed ||| BitVec.ofNat 16 (2 ^ ch) } else c }

/-- The release deadlines of a channel that come to pass, each once for its cycle (R21, R112). -/
def releaseDeadline (ch : Nat) (s : State) : State :=
  match s.runningJob with
  | none => s
  | some (_, j) => match j.channelBlock ch with
    | none => s
    | some b =>
      (s.shu.cycles.reverse.filter fun c => c.gFire + 1000 * b.field 12 ≤ s.now && !c.passed.getLsbD ch).foldl
        (fun s c => passDeadline ch c.tag (deadlineOf j b c s)) s

/-! ## Completion and readiness (R110) -/

/-- An engine reports the completion of an item. -/
def itemCompletion (id : Nat) (s : State) : State :=
  match s.item? id with
  | none => s
  | some it => match it.phase, it.result with
    | .running, some r => completeItem id r s
    | _, _ => s

/-! ## Launch (R17, R57, R93) -/

/-- The control-cycle entry at launch (R17). -/
def insertCycle (slot : Nat) (j : Job) (s : State) : State :=
  match j.blockOf 0x10 with
  | none => s
  | some b =>
    appendDelay (b.field 0)
      { key := nextPosition s.line.v (b.field 1) (b.field 2), period := b.field 1, action := 0, reserved := 0, syncObj := b.field 3,
        tag := serviceTag 0x10 } ⟨some slot, b.service⟩ s

/-- The triggerings of a launch table, in ascending entry index (R93). -/
def launchTriggerings (launch : Word) : List Triggering :=
  (List.range 16).filterMap fun i =>
    let e := Word.get launch (16 * i) 16
    if bits e 15 1 == 1 then some { service := bits e 8 6, list := bits e 0 8, tag := 0, sheet := none, golden := false } else none

/-- The ARMED job starts when the Global Counter reaches its launch count (R57). -/
def jobLaunch (s : State) : State :=
  match s.activeJob with
  | none => s
  | some (slot, j) =>
    if j.state != .armed || s.now < j.launchAt then s
    else
      let s := s.setJob slot fun j => { j with state := .running }
      let s := insertCycle slot j s
      { s with shu.triggerings := s.shu.triggerings ++ launchTriggerings j.launch }

/-! ## Items that complete at the Shuttle (R101) -/

/-- A READY item with an opcode starts at the Shuttle. -/
def atShuttle (id op : Nat) (f : Item → State → State) (s : State) : State :=
  match s.item? id with
  | none => s
  | some it =>
    if it.phase == .ready && Entry.op it.entry == op then
      let s := s.setItem id fun it => { it with phase := .running, pool := .none, started := s.now }
      f it { s with shu.dispatched := satAdd (2 ^ 64 - 1) s.shu.dispatched 1 }
    else s

/-- NOP and WAIT complete OK at dispatch. -/
def completeAtOnce (it : Item) (s : State) : State := completeItem it.id done s

/-- SIGNAL: the signal goes to the Shuttle's queue, and the item completes when it is applied (R100, R101). -/
def signalItem (it : Item) (s : State) : State :=
  let p := Entry.param it.entry
  let obj := bits p 16 16
  if s.shu.syncs.any (·.obj == obj) then sendSignal (it.signal obj (bits p 0 16) (some it.id)) s
  else completeItem it.id (done .refused 0x0204) s

/-! ## Items of the Control Complex and the Line Timer (R52, R101, R167) -/

/-- JOB_EVENT. -/
def jobEventItem (it : Item) (_j : Job) (s : State) : State × Option Result :=
  let x : Event := { s.event 0x0000 0xFD with job := it.jobId, service := it.service, a := it.list, b := it.index,
                                              value := Entry.param it.entry }
  (writeEvent x s, some done)

/-- The operand word of DELAY_INSERT or DELAY_CANCEL, or its failure. -/
def delayOperand (it : Item) (j : Job) (s : State) : State × Check Word :=
  match j.operandSpan it.entry 0 with
  | none => (s, refuse 0x0105)
  | some sp =>
    let (s, g) := readWord it.requester sp.key s
    if g.bad then (s, .error { status := .poisoned, reason := 0x0A01 }) else (s, .ok g.data)

/-- The owner under which an item of the Line Timer places an entry. -/
def Item.ref (it : Item) : ServiceRef := ⟨some it.slot, it.service⟩

/-- DELAY_INSERT. -/
def delayInsertItem (it : Item) (j : Job) (s : State) : State × Option Result :=
  let p := Entry.param it.entry
  let n := bits p 0 2
  match delayOperand it j s with
  | (s, .error f) => (s, some f.result)
  | (s, .ok w) =>
    if Word.get w 128 128 != 0 then (s, some (done .refused 0x0105))
    else
      let d := delayWord w
      let d := if bits p 2 1 == 1 then { d with key := d.key + s.listPos n } else d
      match insertDelay n d it.ref s with
      | .ok s => (s, some done)
      | .error f => (s, some f.result)

/-- DELAY_CANCEL. -/
def delayCancelItem (it : Item) (j : Job) (s : State) : State × Option Result :=
  match delayOperand it j s with
  | (s, .error f) => (s, some f.result)
  | (s, .ok w) =>
    if Word.get w 32 224 != 0 then (s, some (done .refused 0x0105))
    else match cancelDelay (bits (Entry.param it.entry) 0 2) (BitVec.ofNat 32 (Word.get w 0 32)) s with
      | .ok s => (s, some done)
      | .error f => (s, some f.result)

/-- EPOCH_COMMIT: step 1 of its cycle (R18, R20), and the commit (R167). -/
def epochCommitItem (it : Item) (j : Job) (s : State) : State × Option Result :=
  let s := stepOne it.slot it.tag s
  match occCtxOf j with
  | some c => (if s.occ.live then epochCommit c s else s, some done)
  | none => (s, some done)

/-- EPOCH_APPLY. -/
def epochApplyItem (it : Item) (j : Job) (s : State) : State × Option Result :=
  match s.occCtx with
  | some c => epochApply c it j s
  | none => (s, some done)

/-- DELTA_INJECT. -/
def deltaInjectItem (it : Item) (j : Job) (s : State) : State × Option Result :=
  match s.occCtx, j.operandSpan it.entry 0, j.operandSpan it.entry 1 with
  | some c, some p, some d => itemProg (deltaInject c it (((j.service it.service).map (·.serviceType)).getD 0) p d) s
  | _, _, _ => (s, some (done .refused 0x0105))

/-! ## Line events beside the positions (R40 to R42, R58) -/

/-- An accepted rising edge of ENC1_A in CAPTURE mode (R41). -/
def encoderCapture (s : State) : State :=
  if s.enc1Mode != 2 || s.lineBlock.isNone then s
  else if 64 ≤ s.line.capture.length then { s with line.captureDrops := satAdd 255 s.line.captureDrops 1 }
  else { s with line.capture := s.line.capture ++ [⟨s.line.m, s.line.v, s.gcnt⟩] }

/-- The comparison of the forward-count totals at a multiple of 100 µs (R41). -/
def redundantCompare (s : State) : State :=
  let a := s.line.enc0.forward
  let b := s.line.enc1.forward
  if s.enc1Mode != 1 || s.lineBlock.isNone || s.line.state == .lost || s.line.enc0.lost || s.line.enc1.lost then s
  else if s.lineField 7 16 < (a - b) + (b - a) then enterLost 0x0B45 (raiseAlarm 0x0B45 0 0 s)
  else s

/-- The latest application was LINE_MSG_TIMEOUT ago on a follower (R42); one that is LOST because the samples say so is then LOST of its own
accord. -/
def lineMsgTimeout (s : State) : State :=
  if s.role != .follower || (s.line.state == .lost && !s.line.remoteLost) then s
  else if s.now < s.line.lastApplied + 1000 * s.lineField 14 50 then s
  else { raiseAlarm 0x0B49 0 0 s with line.state := .lost, line.lossReason := 0x0B49, line.remoteLost := false }

/-- The reverse flag ρ > 0 of this device (R58). -/
def State.reversing (s : State) : Bool :=
  if s.role == .follower then s.line.remoteReverse else 0 < (s.line.input s.source).rho

/-- The sample of a master at a multiple of 1 µs: its own copy, and a line message on each Peer Link (R58). -/
def lineSample (s : State) : State :=
  if s.role != .master then s
  else
    let x : LineSample :=
      { g := s.now, m := s.line.genM, v := s.line.genV, st := s.line.state, reverse := s.reversing, late := false, tick := s.line.genTick,
        link := none }
    sendLine x { s with line.samples := s.line.samples ++ [x], line.genTick := false }

/-- The window of R40 holds no more than ENC_MAX_RATE counts. -/
def overspeedEnd (s : State) : State :=
  if s.line.overspeed && !s.overspeeding then { s with line.overspeed := false } else s

/-- ENCn_FLT_N returns high after its filter (R42).  An input lost by the pin stays lost until the next reference (DESIGN CHOICE, log 59). -/
def faultRelease (i : Nat) (s : State) : State := setInput i (fun e => { e with faultLow := false }) s

/-- A Global Counter value at which periodic work falls due. -/
def State.at? (s : State) (period : Nat) : Bool := s.now % period == 0

end Sys2Proof.Machine
end

