-- ==== Sys2Proof/Machine/MoveEngines.lean ====
section
/-!
DEFINITION. The Move Engines (R401, R402), and the background work of
the memories: write-back (R389), correction windows (R390), repairs (R409 to R412) and promotion (R397).
-/

namespace Sys2Proof.Machine

open Sys2Proof

/-! ## Move Engines (R401, R402) -/

/-- The number of the Move Engine that runs an item. -/
def Item.moveEngine (it : Item) : Nat := Entry.param it.entry % 16

/-- The end of a Move Engine item that met a bad word after writing some of its `n` output words (R401). -/
def haltItem (it : Item) (j : Job) (operand : Nat) (dst : Span) (n key : Nat) (written : List Got) (s : State) :
    State × Option Result :=
  let left := n - written.length
  let s := haltEngine it.moveEngine key s
  let s := poisonWords (dst.key + written.length) left s
  (s, some (done .poisoned 0x0A07 0 0 (digestGots j operand 0 (written ++ poisonGots left))))

/-- Move words to an output operand, and complete the item. -/
def moveItem (it : Item) (j : Job) (operand : Nat) (dst : Span) (keys : List Nat) (s : State) : State × Option Result :=
  match moveWords it.requester dst.key keys s with
  | (s, gs, none) => (s, some (done .ok 0 0 0 (digestGots j operand 0 gs)))
  | (s, gs, some k) => haltItem it j operand dst keys.length k gs s

/-- COPY. -/
def copyItem (it : Item) (j : Job) (s : State) : State × Option Result :=
  match j.operandSpan it.entry 0, j.operandSpan it.entry 1 with
  | some src, some dst => moveItem it j 1 dst ((List.range src.len).map (src.key + ·)) s
  | _, _ => (s, some (done .refused 0x0105))

/-- FILL. -/
def fillItem (it : Item) (j : Job) (s : State) : State × Option Result :=
  match j.operandSpan it.entry 0, j.operandSpan it.entry 1 with
  | some pat, some dst =>
    let (s, g) := readWord it.requester pat.key s
    if g.bad then haltItem it j 1 dst dst.len pat.key [] s
    else
      let gs := clean (List.replicate dst.len g.data)
      (writeGots dst.key gs s, some (done .ok 0 0 0 (digestGots j 1 0 gs)))
  | _, _ => (s, some (done .refused 0x0105))

/-- Read words until one cannot be read: the words before it, and its key. -/
def readUntilBad (r : Requester) : List Nat → State → State × List Word × Option Nat
  | [], s => (s, [], none)
  | k :: t, s =>
    let (s, g) := readWord r k s
    if g.bad then (s, [], some k)
    else
      let (s, ws, e) := readUntilBad r t s
      (s, g.data :: ws, e)

/-- GATHER. -/
def gatherItem (it : Item) (j : Job) (s : State) : State × Option Result :=
  match j.operandSpan it.entry 0, j.operandSpan it.entry 1, j.operandSpan it.entry 2 with
  | some ix, some src, some dst =>
    match readUntilBad it.requester ((List.range (ceilDiv dst.len 8)).map (ix.key + ·)) s with
    | (s, _, some k) => haltItem it j 2 dst dst.len k [] s
    | (s, ws, none) =>
      let index := (List.range dst.len).map fun i => lane32 (nth ws (i / 8) 0) (i % 8)
      if index.any (src.len ≤ ·) then (s, some (done .refused 0x0105))
      else moveItem it j 2 dst (index.map (src.key + ·)) s
  | _, _, _ => (s, some (done .refused 0x0105))

/-- MOVE_ENGINE_RESUME (R401). -/
def resumeEngine (n : Nat) (s : State) : Check State := do
  need (s.me.halted.getLsbD n) 0x0114
  .ok { s with me.halted := s.me.halted &&& ~~~BitVec.ofNat 16 (2 ^ n) }

/-! ## Write-back and promotion (R389, R397) -/

/-- The contents under which a word is written back: corrected, or none where nothing is to be mended. -/
def mended (rowCol : Bool) (st : Stored) : Option Stored :=
  match decodeStored rowCol st with
  | .corrected d _ _ => some (encodeWord rowCol d)
  | .clean _ | .poison | .uncorrectable _ => none

/-- Mend a stored word in place; a write-back never fires a flip (R408). -/
def mendWord (k : Nat) (s : State) : State :=
  match s.mem.get k with
  | some st => (match mended (s.rowCol k) st with
    | some st => { s with mem := s.mem.put k (some st) }
    | none => s)
  | none => s

/-- The corrected word that has waited longest is written back, a promoted one first. -/
def writeBack (s : State) : State :=
  let order := s.memCtl.writeBacks.filter (·.class1) ++ s.memCtl.writeBacks.filter fun w => !w.class1
  match order with
  | [] => s
  | w :: _ => mendWord w.key { s with memCtl.writeBacks := s.memCtl.writeBacks.filter (·.key != w.key) }

/-- Write-backs to LPDDR5 that have waited 10 µs are promoted behind the class-1 requests that wait already. -/
def promote (s : State) : State :=
  let old (w : WriteBack) : Bool := !w.class1 && (keyMem w.key).1 == memLpddr && w.since + 10000 ≤ s.now
  let ws := s.memCtl.writeBacks
  { s with memCtl.writeBacks :=
      ws.filter (·.class1) ++ ((ws.filter old).map fun w => { w with class1 := true }) ++ ws.filter fun w => !w.class1 && !old w }

/-! ## Correction windows (R390) -/

/-- Event 0x0A02 of a window. -/
def windowEvent (w : CorrWindow) (s : State) : State :=
  let a := at_ w.memory 0 4 ||| at_ w.inst 4 8 ||| at_ (b2n w.rowCol) 12 1 ||| at_ (b2n w.hard) 15 1
  let x : Event := { s.event 0x0A02 w.requester with
    job := w.job, service := w.service, a := a, b := w.count, value := w.syndrome.toNat, gcnt := w.gcnt.toNat, lpos := w.addr }
  writeEvent x s

/-- The windows of 1 ms that have ended are reported and closed. -/
def endWindows (s : State) : State :=
  let ended (w : CorrWindow) : Bool := w.gcnt.toNat / 1000000 < s.now / 1000000
  let ws := sortBy (fun (a b : CorrWindow) => 256 * a.memory + a.inst < 256 * b.memory + b.inst) (s.memCtl.windows.filter ended)
  ws.foldl (fun s w => windowEvent w s) { s with memCtl.windows := s.memCtl.windows.filter fun w => !ended w }

/-! ## Repairs (R409 to R412) -/

/-- Banks of an instance of a memory, and words of one bank; none where the size is not stated. -/
def bankCount (mem : Nat) : Nat := match mem with | 0 => 128 | 2 => 64 | _ => 1
def bankWords (mem : Nat) : Option Nat := (memWords mem).map (· / bankCount mem)

/-- Spare rows or columns of one bank: 8 and 2 in a BSP or Tracer bank, 4 and 1 in another macro, none in LPDDR5 (R409). -/
def spares (mem : Nat) (column : Bool) : Nat :=
  if mem == memLpddr then 0
  else if mem == memBsp || mem == memEdge then (if column then 2 else 8)
  else if column then 1 else 4

/-- Spares of one kind in use in the bank of a repair. -/
def State.sparesUsed (s : State) (r : Repair) : Nat :=
  ((s.memCtl.softRepairs ++ s.lcc.fuses.factoryRepairs ++ s.lcc.fuses.fieldRepairs).filter fun x =>
    x.memory == r.memory && x.inst == r.inst && x.column == r.column && x.bank == r.bank).length

/-- The keys of a row of a bank (R393, R409). -/
def rowKeys (mem inst bank row : Nat) : List Nat :=
  (List.range 8).map fun i => memKey mem inst (bank + bankCount mem * (8 * row + i))

/-- A repair takes effect: a row is copied decoded and encoded again, a column keeps its bits; event 0x0A05 reports it (R411). -/
def applyRepair (r : Repair) (s : State) : State :=
  let s := if r.column then s else (rowKeys r.memory r.inst r.bank r.index).foldl (fun s k => mendWord k s) s
  let s := { s with
    memCtl.softRepairs := s.memCtl.softRepairs ++ [r]
    memCtl.repairsApplied := satAdd 65535 s.memCtl.repairsApplied 1
    lcc.commitQueue := if r.commit && s.lcc.commitQueue.length < 32 then s.lcc.commitQueue ++ [r] else s.lcc.commitQueue }
  let x : Event := { s.event 0x0A05 0xFE with
    a := at_ r.memory 0 4 ||| at_ r.inst 4 8 ||| at_ (b2n r.column) 12 1, b := r.bank, value := r.index }
  writeEvent x s

/-- A repair, refused where no spare is left or the set is full (R411). -/
def softRepair (r : Repair) (s : State) : Check State := do
  need (s.memCtl.softRepairs.length < 32 && s.sparesUsed r < spares r.memory r.column) 0x0106
  .ok (applyRepair r s)

/-- The repair that AUTO_REPAIR makes of a hard-fault candidate: its row, or its column when the table holds two candidates at that
bit in different rows (R410). -/
def autoRepairOf (s : State) (c : Correction) : Repair :=
  let (mem, inst) := keyMem c.key
  let bank := (keyBank c.key).1
  let table := ((s.memCtl.history.find? (·.1 == memId c.key)).map (·.2)).getD []
  let others := table.filter fun x => x.hard && x.bit == c.bit && (keyBank x.key).1 == bank && keyRow x.key != keyRow c.key
  if others.isEmpty then { memory := mem, inst := inst, column := false, bank := bank, index := keyRow c.key, commit := true }
  else { memory := mem, inst := inst, column := true, bank := bank, index := c.bit, commit := true }

/-- The firmware repairs the candidate that has waited longest, where AUTO_REPAIR is 1; one that cannot be repaired is passed over. -/
def autoRepair (s : State) : State :=
  match s.memCtl.candidates with
  | [] => s
  | c :: t =>
    if s.devField 6 159 1 != 1 || s.fw.stage != .running then s
    else
      let s := { s with memCtl.candidates := t }
      match softRepair (autoRepairOf s c) s with
      | .ok s => s
      | .error _ => s

/-- Instances of a memory in the grade. -/
def State.memInstances (s : State) (mem : Nat) : Nat :=
  match mem with
  | 3 => if s.grade == .ft9_64I then 16 else 12
  | 4 => if s.grade == .ft9_64I then 64 else 48
  | _ => 1

/-- MEM_REPAIR from its argument registers (R411, R488). -/
def repairCommand (a0 a1 a2 : Nat) (s : State) : Check State := do
  let mem := bits a0 0 4
  let inst := bits a0 4 8
  let column := bits a0 12 1 == 1
  need (mem ≤ 6 && inst < s.memInstances mem) 0x0105
  need (a1 < bankCount mem) 0x0105
  if column then need (a2 ≤ 287) 0x0105
  else need (match bankWords mem with | some w => a2 < w / 8 | none => true) 0x0105
  softRepair { memory := mem, inst := inst, column := column, bank := a1, index := a2, commit := bits a0 16 1 == 1 } s

/-- The key that MEM_FLIP_ARM names by an address: a device address for the BSP and LPDDR5, else a word index (R488). -/
def State.flipKey (s : State) (mem inst a : Nat) : Option Nat :=
  match mem with
  | 0 => if a / 32 < bspWords then some (a / 32) else none
  | 1 => if (s.lpRegion (a / 32)).isSome then some (a / 32) else none
  | _ => match memWords mem with
    | some w => if a < w then some (memKey mem inst a) else none
    | none => if a < 0x100000000 then some (memKey mem inst a) else none

/-- MEM_FLIP_ARM from its argument registers and its data mask (R408). -/
def armFlip (a0 addr check : Nat) (data : Word) (s : State) : Check State := do
  let mem := bits a0 0 4
  let inst := bits a0 4 8
  need s.memCtl.maintenance 0x0112
  need (mem ≤ 6) 0x0105
  need (inst < s.memInstances mem) 0x0102
  let key := s.flipKey mem inst addr
  need (bits a0 16 1 == 0 || key.isSome) 0x0105
  .ok { s with
    memCtl.flip := some { memory := mem, inst := inst, addr := if bits a0 16 1 == 1 then key else none, dataMask := data,
                          checkMask := BitVec.ofNat 32 check }
    memCtl.flipFired := false }

/-- MEMORY_MODE (R403, R405). -/
def memoryMode (maintenance : Bool) (s : State) : Check State := do
  need s.activeJob.isNone 0x0112
  let s := if !maintenance && s.memCtl.maintenance then flushAll s else s
  .ok { s with memCtl.maintenance := maintenance }

end Sys2Proof.Machine
end

