-- ==== Sys2Proof/Machine/Kernels.lean ====
section
/-!
DEFINITION. Kernels of the signed library on Work Cores: their load into the core (R105, R400), their shares (R474), the generator
(R480, R481) and their outputs (assumption log 7).
-/

namespace Sys2Proof.Machine

open Sys2Proof

/-! ## The generator (R480) -/

/-- One round of the generator. -/
def genRound (seed0 seed1 : Nat) (xy : Nat × Nat) (r : Nat) : Nat × Nat :=
  let k := m64 ((if r % 2 == 0 then seed0 else seed1) + (r + 1) * 0x9E3779B97F4A7C15)
  let t := mixF (xy.1 ^^^ k)
  (xy.2 ^^^ t, xy.1)

/-- gen(c0, c1) under two seeds: x in the low half, y in the high half. -/
def gen (seed0 seed1 c0 c1 : Nat) : BitVec 128 :=
  let xy := (List.range 6).foldl (genRound seed0 seed1) (c0, c1)
  BitVec.ofNat 128 (xy.1 + 2 ^ 64 * xy.2)

/-- Draw `n` of an item under a stream selector (R480). -/
def itemDraw (it : Item) (j : Job) (sel n : Nat) : BitVec 128 :=
  let step := (it.trig + j.stepBase).toNat
  let c0 := step * 2 ^ 32 + n % 2 ^ 32
  let c1 := (sel % 2 ^ 32) * 2 ^ 32 + it.service * 2 ^ 22 + it.list * 2 ^ 14 + it.index
  gen j.seed0.toNat j.seed1.toNat c0 c1

/-- The uniform value in [0, 1) of a draw: (x >> 11) × 2^−53 of its bits [63:0] (R480). -/
def uniform (d : BitVec 128) : Rat := ((bits d.toNat 0 64 >>> 11 : Nat) : Rat) / 2 ^ 53

/-- The draws of an item (R480). -/
def itemDraws (it : Item) (j : Job) : Config.Draws :=
  { raw := itemDraw it j, uniform := fun sel n => uniform (itemDraw it j sel n) }

/-! ## The load of a kernel (R105, R400) -/

/-- The Work Core that runs an item. -/
def Item.core (it : Item) : Nat := match it.engine with | some (.workCore n) => n.val | _ => 0

/-- A kernel comes into the local memory of a core, which holds nothing else (R105). -/
def holdKernel (core : Nat) (k : Reg) (ws : List Word) (s : State) : State :=
  writeWords (memKey memCore core 0) ws
    { s with mem := s.mem.filter fun c => keyMem c.1 != (memCore, core), shu.kernels := (core, k) :: s.shu.kernels.filter (·.1 != core) }

/-- Read library words up to the first that cannot be read, which the alarm names (R400); gives the words, or that word's key. -/
def readLibrary (r : Requester) : List Nat → State → State × Except Nat (List Word)
  | [], s => (s, .ok [])
  | k :: t, s =>
    let (s, g) := readWord { r with names := true } k s
    if g.bad then (s, .error k)
    else
      let (s, ws) := readLibrary r t s
      (s, ws.map (g.data :: ·))

/-- Load the kernel of an item from the library in the BSP into its core; gives the library word that could not be read, if there is one. -/
def loadKernel (it : Item) (s : State) : State × Option Nat :=
  match readLibrary it.requester ((Config.kernelCode s.fw.digest (kernelOf it.entry)).map (· % 98304)) s with
  | (s, .error k) => (s, some k)
  | (s, .ok ws) => (holdKernel it.core (kernelOf it.entry) ws s, none)

/-- The core fetches its instructions: the words of its local memory, each readable or not; an unlisted word is a clean zero. -/
def fetchKernel (it : Item) (s : State) : State × Bool :=
  let (s, gs) := readKeys it.requester ((s.mem.map (·.1)).filter fun k => keyMem k == (memCore, it.core)) s
  (s, !anyBad gs)

/-- After a trap the core reloads its kernel; where the reload meets a word that it cannot read, the core is excluded, and the alarm names the
library word: that of the uncorrectable read, or, for a word with the poison mark, whose read raises none, one of its own (R391, R400;
assumption log 77). -/
def reloadKernel (it : Item) (s : State) : State :=
  match loadKernel it s with
  | (s, none) => s
  | (s, some k) =>
    let s := if s.poisonedAt k then raiseAlarm 0x0A01 (k % 65536) (k / 65536) s else s
    { s with shu.kernels := s.shu.kernels.filter (·.1 != it.core), sm.excludedCores := it.core :: s.sm.excludedCores }

/-- The core holds the kernel of its item, or loads it first; false where it traps at a word that it cannot read (R105, R400). -/
def readyKernel (it : Item) (s : State) : State × Bool :=
  if s.shu.kernels.any fun (c, k) => c == it.core && k == kernelOf it.entry then fetchKernel it s
  else match loadKernel it s with
    | (s, none) => fetchKernel it s
    | (s, some _) => (s, false)

/-- Run an item on a Work Core; a trap ends the item by `trap` (R105, R400). -/
def onCore (trap run : Item → Job → State → State × Option Result) (it : Item) (j : Job) (s : State) : State × Option Result :=
  match readyKernel it s with
  | (s, true) => run it j s
  | (s, false) =>
    let (s, r) := trap it j s
    (reloadKernel it s, r)

/-! ## KERNEL (R78, R474, R479) -/

/-- Operands of an entry with an access bit: 0 read, 1 write. -/
def operandsWith (e : Entry) (bit : Nat) : List Nat :=
  (List.range 4).filter fun i => ((Entry.operand e i).access).testBit bit

/-- Read the read operands of an item, in ascending operand number. -/
def readOperands (it : Item) (j : Job) : List Nat → State → State × List (List Got)
  | [], s => (s, [])
  | i :: t, s =>
    let (s, gs) := match j.operandSpan it.entry i with
      | some sp => readSpan it.requester sp s
      | none => (s, [])
    let (s, rest) := readOperands it j t s
    (s, gs :: rest)

/-- The kernel may vary in Normal mode: it reduces floating-point values, or the library marks it so (R79, R474). -/
def mayVary (library : BitVec 512) (param : BitVec 32) : Bool :=
  Config.kernelReduces library param == some true || Config.kernelVaries library param

/-- S_W of a reducing kernel (R474, R475).  An integer reduction gives the same bits under every division (R473), so that it is divided into 48
shares wherever it runs. -/
def shareCount (s : State) (j : Job) (float : Bool) : Nat := if s.grade == .ft9_64I && !j.reproducible && float then 64 else 48

/-- The partial result of share k of w: its elements in ascending order (R474). -/
def sharePartial (call : Config.KernelCall) (d : Config.Draws) (w k : Nat) : List Word :=
  let n := Config.kernelElements call
  let first := k * n / w
  (List.range ((k + 1) * n / w - first)).foldl (fun acc i => Config.kernelElement call d acc (first + i)) (Config.kernelStart call)

/-- The reduction of a kernel in w shares, combined in ascending share order (R474). -/
def reduceShares (call : Config.KernelCall) (d : Config.Draws) (w : Nat) : List Word :=
  (List.range (w - 1)).foldl (fun acc k => Config.kernelCombine call acc (sharePartial call d w (k + 1))) (sharePartial call d w 0)

/-- What a kernel's reduction gives; a kernel that reduces nothing has none, and depends on no share count (R473, R474). -/
def kernelReduction (s : State) (j : Job) (call : Config.KernelCall) (d : Config.Draws) : List Word :=
  match Config.kernelReduces call.library call.param with
  | none => []
  | some float => reduceShares call d (shareCount s j float)

/-- Write the outputs of a kernel, each within its operand; gives the keys of the words written. -/
def writeOutputs (it : Item) (j : Job) (out : Nat → List Got) : List Nat → State → State × List Nat
  | [], s => (s, [])
  | i :: t, s =>
    match j.operandSpan it.entry i with
    | none => writeOutputs it j out t s
    | some sp =>
      let gs := (out i).take sp.len
      let (s, keys) := writeOutputs it j out t (writeGots sp.key gs s)
      (s, (List.range gs.length).map (sp.key + ·) ++ keys)

/-- The word of an index of R479 as memory holds it: its data, or none with the poison mark. -/
def heldWord (s : State) (n : Nat) (sp : Span) (w : Nat) : Nat × Option Word := (2 ^ 48 * n + w, s.peek (sp.key + w))

/-- The digest of a kernel over its write operands: each word that it has written, at the value that the word holds at its completion (R479). -/
def kernelDigest (it : Item) (j : Job) (keys : List Nat) (s : State) : Nat :=
  digestOf j.digestKey.toNat ((operandsWith it.entry 1).flatMap fun i => match j.operandSpan it.entry i with
    | some sp => ((List.range sp.len).filter fun w => keys.contains (sp.key + w)).map (heldWord s i sp)
    | none => [])

/-- The key that an atomic of a kernel names: a word counted from its operand, or from address 0 where the entry has no such operand. -/
def atomicKey (it : Item) (j : Job) (a : Config.KernelAtomic) : Nat := ((j.operandSpan it.entry a.operand).map (·.key)).getD 0 + a.word

/-- The word of an atomic is a BSP word of a write operand. -/
def atomicAllowed (it : Item) (j : Job) (a : Config.KernelAtomic) : Bool :=
  match j.operandSpan it.entry a.operand with
  | some sp => a.word < sp.len && sp.key + a.word < bspWords && (Entry.operand it.entry a.operand).access.testBit 1
  | none => false

/-- One atomic of a kernel; elsewhere than on a BSP word of a write operand it is a violation, changes nothing and returns zero (R394, R407). -/
def kernelAtomic (it : Item) (j : Job) (a : Config.KernelAtomic) (s : State) : State × Option Nat :=
  if atomicAllowed it j a then
    atomic it.requester (atomicKey it j a) a.op.val (a.lane.val % (if a.op.val % 2 == 0 then 8 else 4)) a.value.toNat s
  else (violate it.requester.num (32 * atomicKey it j a) false true false s, some 0)

/-- The atomics of a kernel, in order: the call with what they returned, and the keys of the words that they wrote (R394). -/
def kernelAtomics (it : Item) (j : Job) : Nat → Config.KernelCall → State → State × Config.KernelCall × List Nat
  | 0, call, s => (s, call, [])
  | n + 1, call, s =>
    match Config.kernelAtomic call (itemDraws it j) with
    | none => (s, call, [])
    | some a =>
      let (s, v) := kernelAtomic it j a s
      let (s, call, keys) := kernelAtomics it j n { call with returned := call.returned ++ [v] } s
      (s, call, if atomicAllowed it j a && v.isSome then atomicKey it j a :: keys else keys)

/-- Run a kernel: an unreadable input poisons every output word (R399). -/
def runKernel (it : Item) (j : Job) (s : State) : State × Option Result :=
  let (s, ins) := readOperands it j (operandsWith it.entry 0) s
  let d := itemDraws it j
  let read : Config.KernelCall := { library := s.fw.digest, param := BitVec.ofNat 32 (Entry.param it.entry), inputs := ins.map gotData }
  let call : Config.KernelCall := { read with reduced := kernelReduction s j read d }
  let writes := operandsWith it.entry 1
  if ins.any anyBad then
    let (s, keys) := writeOutputs it j (fun i => poisonGots (Config.kernelOutput call d i).length) writes s
    (s, some (poisonedResult (kernelDigest it j keys s)))
  else
    let (s, call, touched) := kernelAtomics it j (Config.kernelAtomics call d) call s
    let (s, keys) := writeOutputs it j (fun i => clean (Config.kernelOutput call d i)) writes s
    (s, some (done .ok 0 0 0 (kernelDigest it j (touched ++ keys) s)))

/-- The end of a KERNEL whose core trapped before it ran: every word of its write operands is poisoned. -/
def trapKernel (it : Item) (j : Job) (s : State) : State × Option Result :=
  let (s, keys) := writeOutputs it j (fun i => poisonGots (((j.operandSpan it.entry i).map (·.len)).getD 0)) (operandsWith it.entry 1) s
  (s, some (poisonedResult (kernelDigest it j keys s)))

/-- KERNEL on its item. -/
def kernelItem (it : Item) (j : Job) (s : State) : State × Option Result := onCore trapKernel runKernel it j s

/-- CHECK_B on its item. -/
def checkBOnCore (it : Item) (j : Job) (s : State) : State × Option Result :=
  onCore (fun it j s => poisonOut j it 3 1 s) checkBItem it j s

end Sys2Proof.Machine
end

