-- ==== Sys2Proof/Machine/SafetyManager.lean ====
section
/-!
DEFINITION. The Safety Manager (R362 to R368) and the Self-Test Sequencer (R369 to R373).
-/

namespace Sys2Proof.Machine

open Sys2Proof

/-! ## SAFE_REQ and SAFE_OK (R366, R367) -/

/-- SAFE_REQ low is accepted as assertion; one that dates from wake raises no alarm.  While no release has been accepted, it breaks the high
level that a release needs. -/
def safeReqAssert (s : State) : State :=
  if s.sm.safeReq then { s with sm.safeReqAt := s.now }
  else
    let s := if s.sm.safeReqSeen then raiseAlarm 0x0905 0 0 s else s
    latchCause 1 0x0905 { s with sm.safeReq := true, sm.safeReqAt := s.now }

/-- SAFE_REQ_RELEASE in ns. -/
def State.releaseTime (s : State) : Nat := 1000000 * s.devField 7 6 10

/-- SAFE_REQ high has held for SAFE_REQ_RELEASE and is accepted as release; it cannot have held so long sooner after the assertion. -/
def safeReqRelease (s : State) : State :=
  if s.now < s.sm.safeReqAt + s.releaseTime then s else { s with sm.safeReq := false, sm.safeReqSeen := true }

/-- The levels that SAFE_OK_P and SAFE_OK_N are driven to (R366). -/
def State.safeOkLevels (s : State) : Bool × Bool :=
  if s.smState != 0 then (false, false)
  else if s.now / 50000 % 2 == 0 then (true, false)
  else (false, true)

/-- A reading of the two pads; two consecutive differences latch OUTPUT_READBACK (R366, R373). -/
def safeOkReadback (p n : Bool) (s : State) : State :=
  if (p, n) == s.safeOkLevels then { s with sm.readbackMiss := 0 }
  else
    let s := { s with sm.readbackMiss := min (s.sm.readbackMiss + 1) 2 }
    if s.sm.readbackMiss == 2 && !s.sm.latched.getLsbD 6 then
      latchCause 6 0x0904 (raiseAlarm 0x0904 0xFFF2 0 { s with sm.readbackFailed := true, sm.lastFail := 0xFFF2 })
    else s

/-- SAFETY_RESUME (R362). -/
def safetyResume (s : State) : Check State := do
  need (s.standing == 0) 0x0906 s.standing
  .ok { s with sm.latched := 0 }

/-! ## The self-test plan (R369) -/

/-- Class code of a target. -/
def classCode : TestClass → Nat
  | .workCore => 1 | .panel => 2 | .lane => 3 | .tks => 4 | .pse => 5 | .darn => 6 | .tracerGroup => 7 | .seam => 8

/-- Instances of a class in the grade. -/
def State.instances (s : State) (c : TestClass) : Nat :=
  match c with
  | .workCore => if s.grade == .ft9_64I then 64 else 48
  | .panel => if s.grade == .ft9_64I then 16 else 12
  | .lane => 8 | .tks => 2 | .pse => 8 | .darn => 4 | .tracerGroup => 8 | .seam => 1

/-- Slices of each instance of a class. -/
def slicesOf : TestClass → Nat
  | .workCore | .panel => 2
  | .lane | .tks | .pse | .darn | .tracerGroup | .seam => 1

/-- Length of a slice in µs. -/
def sliceLength : TestClass → Nat
  | .workCore => 40 | .panel => 45 | .lane => 30 | .tks => 20 | .pse => 20 | .darn => 10 | .tracerGroup => 25 | .seam => 5

/-- The class carries on with the instances that remain. -/
def redundant : TestClass → Bool
  | .workCore | .panel | .tks | .pse => true
  | .lane | .darn | .tracerGroup | .seam => false

/-- Every class. -/
def testClasses : List TestClass := [.workCore, .panel, .lane, .tks, .pse, .darn, .tracerGroup, .seam]

/-- An instance takes work: it has failed no slice and is not excluded under R293 or R400. -/
def State.inService (s : State) (c : TestClass) (n : Nat) : Bool :=
  n < s.instances c && !s.sm.excluded.contains (c, n) &&
    !(c == .panel && s.te.excluded.getLsbD n) && !(c == .workCore && s.sm.excludedCores.contains n)

/-- A panel that R293 excludes and that has failed no slice: its next slice readmits it or not (R373). -/
def State.onTrial (s : State) (c : TestClass) (n : Nat) : Bool :=
  c == .panel && n < s.instances c && s.te.excluded.getLsbD n && !s.sm.excluded.contains (c, n)

/-- A slice of the plan. -/
def planSlice (c : TestClass) (n k : Nat) : TestSlice := ⟨c, Fin.ofNat 64 n, Fin.ofNat 2 k⟩

/-- The slices of the instances that a test selects. -/
def State.slicesWhere (s : State) (p : TestClass → Nat → Bool) : List TestSlice :=
  testClasses.flatMap fun c =>
    ((List.range (s.instances c)).filter fun n => p c n).flatMap fun n => (List.range (slicesOf c)).map fun k => planSlice c n k

/-- The time of the last pass of a slice; none before the first since wake. -/
def State.lastPass (s : State) (x : TestSlice) : Option Nat := (s.sm.passes.find? (·.1 == x)).map (·.2)

/-- The slices whose instance is in service. -/
def State.servedSlices (s : State) : List TestSlice := s.slicesWhere s.inService

/-- Coverage age in ns: none while a slice in service has not passed since wake (R372). -/
def State.coverageAge (s : State) : Option Nat :=
  let ps := s.servedSlices.map s.lastPass
  if ps.any (·.isNone) then none else some (s.now - (ps.filterMap id).foldl min s.now)

/-- Evaluation of the coverage age at a multiple of 100 µs (R372); before the first round the cause INIT stands instead. -/
def evaluateCoverage (s : State) : State :=
  let beyond := s.sm.covered && (match s.coverageAge with | some a => decide (1000000 * s.devField 7 2 100 < a) | none => false)
  if beyond && !s.sm.overdue then latchCause 2 0x0903 (raiseAlarm 0x0903 0 0 { s with sm.overdue := true })
  else { s with sm.overdue := beyond }

/-! ## Test windows and the start of a slice (R370, R371) -/

/-- The engine of an instance; a Tracer group has none of its own. -/
def instEngine (c : TestClass) (n : Nat) : Option Engine :=
  match c with
  | .workCore => some (.workCore (Fin.ofNat 64 n))
  | .panel => some (.panel (Fin.ofNat 16 n))
  | .lane => some (.lane (Fin.ofNat 8 n))
  | .tks => some (.tks (Fin.ofNat 2 n))
  | .pse => some (.pse (Fin.ofNat 8 n))
  | .darn => some (.darn (Fin.ofNat 4 n))
  | .seam => some .seam
  | .tracerGroup => none

/-- The Tracer has no apply, count, recount or sweep in progress or queued. -/
def State.tracerIdle (s : State) : Bool :=
  !(s.shu.items.any fun it => it.phase == .running && (match it.engine with | some (.tracer _) => true | _ => false)) &&
    s.trc.rotations.isEmpty && s.trc.fullCount.isNone && s.trc.recounts.isEmpty && s.trc.overflow.isNone

/-- An instance is idle, and holds no pending completion. -/
def State.instIdle (s : State) (c : TestClass) (n : Nat) : Bool :=
  !(s.sm.running.any fun r => r.slice.cls == c && r.slice.inst.val == n) &&
    (match instEngine c n with
     | some e => !s.engineBusy e
     | none => s.tracerIdle)

/-- A SAFETY item that an instance of a class of R369 could take is READY or RELEASED (R371). -/
def State.safetyWaits (s : State) (c : TestClass) : Bool :=
  s.shu.items.any fun it =>
    Entry.safety it.entry && (it.phase == .ready || it.phase == .released) &&
      (List.range (s.instances c)).any fun n => match instEngine c n with
        | some e => engineTakes s e (s.itemClass it)
        | none => false

/-- The test window of a cycle, as first and last Global Counter (R370). -/
def State.windowOf (s : State) (c : Cycle) : Nat × Nat := (c.gFire + 1000 * s.devField 7 0 250, c.gFire + 1000 * s.devField 7 1 940)

/-- The test window that holds the present instant, of the latest cycle that has one; `none` where every instant lies in a window, and an empty
window where none does (R370). -/
def State.testWindow (s : State) : Option (Nat × Nat) :=
  match s.runningJob with
  | none => none
  | some (_, j) =>
    if (j.blockOf 0x10).isNone then none
    else some (((s.shu.cycles.map s.windowOf).find? fun w => w.1 ≤ s.now && s.now ≤ w.2).getD (0, 0))

/-- A slice of the plan whose instance is in service or on trial. -/
def State.inPlan (s : State) (x : TestSlice) : Bool :=
  x.slice.val < slicesOf x.cls && (s.inService x.cls x.inst.val || s.onTrial x.cls x.inst.val)

/-- The core that does the duty of core n: itself, or while it is held the lowest core that is ready; none while it restarts (R434, R435). -/
def State.dutyCore (s : State) (n : Nat) : Option Nat :=
  if !s.fw.held.getLsbD n then (if s.fw.ready.getLsbD n then some n else none)
  else (List.range 4).find? fun m => s.fw.ready.getLsbD m

/-- The conditions of R371 other than the window, with the device On (R502); the schedule is the duty of CC3 (R434). -/
def State.mayTest (s : State) (x : TestSlice) : Bool :=
  let c := x.cls
  let n := x.inst.val
  s.power == .on && s.fw.stage == .running && (s.dutyCore 3).isSome && s.inPlan x && s.sm.running.length < s.devField 7 3 4 && s.instIdle c n && !s.safetyWaits c &&
    (!redundant c || (List.range (s.instances c)).any fun m => m != n && s.inService c m && s.instIdle c m)

/-- The slice would end within the window. -/
def State.fitsWindow (s : State) (x : TestSlice) : Bool :=
  match s.testWindow with
  | none => true
  | some (a, b) => a ≤ s.now && s.now + 1000 * sliceLength x.cls ≤ b

/-- A slice comes before another: a panel on trial first, then the oldest last pass (R371). -/
def State.testBefore (s : State) (x y : TestSlice) : Bool :=
  let tx := s.onTrial x.cls x.inst.val
  let ty := s.onTrial y.cls y.inst.val
  if tx != ty then tx
  else match s.lastPass x, s.lastPass y with
    | none, some _ => true
    | some a, some b => a < b
    | _, none => false

/-- Within a window, a slice that meets every condition but the first and has not started in it is counted, once for the window (R371). -/
def deferSlice (s : State) (x : TestSlice) : State :=
  match s.testWindow with
  | none => s
  | some (a, b) =>
    let passed := match s.lastPass x with | some p => decide (a ≤ p) | none => false
    if a < b && s.mayTest x && !s.fitsWindow x && !passed && !s.sm.deferredNow.contains (x, b) then
      { s with sm.deferred := satAdd 65535 s.sm.deferred 1, sm.deferredNow := (x, b) :: s.sm.deferredNow.filter fun y => s.now ≤ y.2 }
    else s

/-- The slices that may be tested: those in service and on trial. -/
def State.planned (s : State) : List TestSlice := s.slicesWhere fun c n => s.inService c n || s.onTrial c n

/-- SELFTEST_FAIL of a class that cannot carry on, with a target code (R362, R373). -/
def classLost (code : Nat) (s : State) : State :=
  latchCause 3 0x0904 (raiseAlarm 0x0904 code 0 { s with sm.testFailed := true, sm.lastFail := BitVec.ofNat 16 code })

/-- The redundant class that has no instance left in service. -/
def State.emptyClass (s : State) : Option TestClass :=
  testClasses.find? fun c => redundant c && !(List.range (s.instances c)).any fun n => s.inService c n

/-- A redundant class that R293 or R400 has left without an instance latches SELFTEST_FAIL as one that a failed slice has left (R373); no slice names an
instance, so that the target code names the class and instance 0 (DESIGN CHOICE, log 86). -/
def watchClasses (s : State) : State :=
  if s.sm.testFailed then s
  else match s.emptyClass with
    | some c => classLost (256 * classCode c) s
    | none => s

/-- What the Safety Manager and the Self-Test Sequencer do at every ns: a class without an instance and a difference between the copies of the
manager are acted on (R362, R373), and slices held back by the window alone are counted (R371). -/
def safetyTick (s : State) : State :=
  let s := watchClasses s
  let s := if s.upset == some .managerCopy then copiesDiffer 0xFFF1 s else s
  match s.testWindow with
  | some (a, b) => if a < b then s.planned.foldl deferSlice s else s
  | none => s

/-- The start of a slice (R371): its instance issues no GET while it runs. -/
def startSlice (x : TestSlice) (s : State) : State :=
  if !s.mayTest x then s
  else if !s.fitsWindow x then deferSlice s x
  else if s.planned.any fun y => s.mayTest y && s.fitsWindow y && s.testBefore y x then s
  else
    let gone (e : Engine) : Bool := match e with
      | .tracer _ => x.cls == .tracerGroup
      | e => instEngine x.cls x.inst.val == some e
    { s with sm.running := s.sm.running ++ [⟨x, s.now⟩], shu.gets := s.shu.gets.filter fun e => !gone e }

/-! ## The end of a slice (R372, R373) -/

/-- Count a full round when every slice in service has passed since the round began; the first ends INIT (R362, R369). -/
def countRound (s : State) : State :=
  let passed (x : TestSlice) : Bool := match s.lastPass x with | some p => s.sm.roundStart < p | none => false
  if s.servedSlices.all passed then
    { s with sm.rounds := satAdd 65535 s.sm.rounds 1, sm.roundStart := s.now, sm.covered := true }
  else s

/-- A slice passes; a panel on trial is readmitted. -/
def passSlice (x : TestSlice) (s : State) : State :=
  let s := if s.onTrial x.cls x.inst.val then { s with te.excluded := s.te.excluded &&& ~~~BitVec.ofNat 16 (2 ^ x.inst.val) } else s
  countRound { s with sm.passes := (x, s.now) :: s.sm.passes.filter (·.1 != x) }

/-- A slice fails: its instance is excluded until wake, and SELFTEST_FAIL is latched where the class cannot carry on.  A Tensor item that gathers
panels starts where the panel lost has reduced its width (R288). -/
def failSlice (x : TestSlice) (s : State) : State :=
  let code := 256 * classCode x.cls + x.inst.val
  let s := raiseAlarm 0x0904 code 0
    { s with sm.excluded := (x.cls, x.inst.val) :: s.sm.excluded, sm.lastFail := BitVec.ofNat 16 code }
  let left := (List.range (s.instances x.cls)).any fun n => s.inService x.cls n
  let s := if redundant x.cls && left then s else latchCause 3 0x0904 { s with sm.testFailed := true }
  countRound (tensorDispatch s)

/-- The end of a running slice once its length has passed. -/
def endSlice (x : TestSlice) (pass : Bool) (s : State) : State :=
  match s.sm.running.find? (·.slice == x) with
  | none => s
  | some r =>
    if s.now < r.start + 1000 * sliceLength x.cls then s
    else
      let s := { s with sm.running := s.sm.running.filter (·.slice != x) }
      if pass then passSlice x s else failSlice x s

end Sys2Proof.Machine
end

