-- ==== Sys2Proof/Machine/Tensor.lean ====
section
/-!
DEFINITION. The Tensor Engine (file 11): formats (R278 to R280), tensors (R281), arithmetic (R282 to R286), tiles and their nominal time
(R287, R302), the panel buffers (R276), the arithmetic check (R290 to R293), network images (R295 to R297), NETWORK_SEGMENT (R299) and MATMUL
(R300) with the status record of R301.
-/

namespace Sys2Proof.Machine

open Sys2Proof

/-! ## Binary formats (R278, R279) -/

/-- A binary floating-point format: exponent and fraction bits, and its largest finite value. -/
structure FloatFormat where
  exp : Nat
  frac : Nat
  largest : Rat
  deriving DecidableEq, Repr

/-- 2^e. -/
def pow2 (e : Int) : Rat := if 0 ≤ e then ((2 ^ e.toNat : Nat) : Rat) else 1 / ((2 ^ (-e).toNat : Nat) : Rat)

def FloatFormat.bias (f : FloatFormat) : Int := 2 ^ (f.exp - 1) - 1

def e4m3 : FloatFormat := ⟨4, 3, 448⟩
def e5m2 : FloatFormat := ⟨5, 2, 57344⟩
def bf16 : FloatFormat := ⟨8, 7, (2 - pow2 (-7)) * pow2 127⟩
def fp16 : FloatFormat := ⟨5, 10, 65504⟩
def fp32 : FloatFormat := ⟨8, 23, (2 - pow2 (-23)) * pow2 127⟩

/-- The floating-point format of a code of R278. -/
def floatFormat (code : Nat) : Option FloatFormat :=
  match code with
  | 2 => some e4m3
  | 3 => some e5m2
  | 4 => some bf16
  | 5 => some fp16
  | 7 => some fp32
  | _ => none

/-- Bits of an element of a format code. -/
def elementBits (code : Nat) : Nat :=
  match code with
  | 1 => 4
  | 0 | 2 | 3 => 8
  | 4 | 5 => 16
  | _ => 32

/-- The value of an element, and whether it was a NaN or infinity that the feed replaces (R279). -/
def decodeFloat (f : FloatFormat) (raw : Nat) : Rat × Bool :=
  let m := bits raw 0 f.frac
  let e := bits raw f.frac f.exp
  let neg := raw.testBit (f.frac + f.exp)
  let top := 2 ^ f.exp - 1
  let sign (v : Rat) : Rat := if neg then -v else v
  if f.exp == 4 then
    if e == 15 && m == 7 then (0, true)
    else if e == 0 then (sign ((m : Rat) * pow2 (-9)), false)
    else (sign (((8 + m : Nat) : Rat) * pow2 ((e : Int) - 10)), false)
  else if e == top then if m == 0 then (sign f.largest, true) else (0, true)
  else if e == 0 then (sign ((m : Rat) * pow2 (1 - f.bias - f.frac)), false)
  else (sign (((2 ^ f.frac + m : Nat) : Rat) * pow2 ((e : Int) - f.bias - f.frac)), false)

/-- The value of an element of a format code. -/
def decodeElement (code raw : Nat) : Rat × Bool :=
  match floatFormat code with
  | some f => decodeFloat f raw
  | none => ((signed (elementBits code) raw : Rat), false)

/-- floor(log2 a) for a positive rational. -/
def log2Rat (a : Rat) : Int :=
  let e : Int := (a.num.toNat.log2 : Int) - (a.den.log2 : Int)
  if pow2 e ≤ a then (if pow2 (e + 1) ≤ a then e + 1 else e) else e - 1

/-- The nearest integer, ties to even. -/
def roundEven (x : Rat) : Int :=
  let f := x.floor
  let r := x - (f : Rat)
  if r < 1 / 2 then f else if 1 / 2 < r then f + 1 else if f % 2 == 0 then f else f + 1

/-- Exponent of the last place of a magnitude in a format. -/
def lastPlace (f : FloatFormat) (a : Rat) : Int := max (log2Rat a) (1 - f.bias) - f.frac

/-- Round to a format, ties to even; a magnitude that rounds beyond the largest finite value becomes it, and saturates (R283). -/
def roundFloat (f : FloatFormat) (x : Rat) : Rat × Bool :=
  if x == 0 then (0, false)
  else
    let p := pow2 (lastPlace f x.abs)
    let v := (roundEven (x / p) : Rat) * p
    if f.largest < v.abs then (if x < 0 then -f.largest else f.largest, true) else (v, false)

/-- RNE32 of R283. -/
def rne32 (x : Rat) : Rat × Bool := roundFloat fp32 x

/-- The bits of a value that lies in a format; zero is +0. -/
def encodeFloat (f : FloatFormat) (v : Rat) : Nat :=
  if v == 0 then 0
  else
    let a := v.abs
    let e := lastPlace f a
    let n := (a / pow2 e).num.toNat
    let sign := if v < 0 then 2 ^ (f.exp + f.frac) else 0
    if n < 2 ^ f.frac then sign + n
    else sign + (e + f.frac + f.bias).toNat * 2 ^ f.frac + (n - 2 ^ f.frac)

/-! ## Layers (R281, R296) -/

/-- A layer record. -/
structure Layer where
  inFmt : Nat
  wFmt : Nat
  outFmt : Nat
  split : Nat
  cIn : Nat
  cOut : Nat
  hIn : Nat
  wIn : Nat
  kh : Nat
  kw : Nat
  sy : Nat
  sx : Nat
  py : Nat
  px : Nat
  dy : Nat
  dx : Nat
  src : Nat
  zeroOut : Int
  inAt : Nat
  outAt : Nat
  wAt : Nat
  pAt : Nat
  clampLo : Nat
  clampHi : Nat
  reservedOk : Bool
  deriving DecidableEq, Repr

/-- The layer record in 64 bytes. -/
def layerOf (r : Nat) : Layer :=
  let b (i n : Nat) : Nat := bits r (8 * i) (8 * n)
  { inFmt := b 0 1, wFmt := b 1 1, outFmt := b 2 1, split := b 3 1, cIn := b 4 2, cOut := b 6 2, hIn := b 8 2, wIn := b 10 2,
    kh := bits r 96 4 + 1, kw := bits r 100 4 + 1, sy := bits r 104 4 + 1, sx := bits r 108 4 + 1, py := bits r 112 4,
    px := bits r 116 4, dy := bits r 120 4 + 1, dx := bits r 124 4 + 1, src := bits r 128 1, zeroOut := signed 8 (b 17 1), inAt := b 20 4,
    outAt := b 24 4, wAt := b 28 4, pAt := b 32 4, clampLo := b 36 4, clampHi := b 40 4,
    reservedOk := bits r 129 7 == 0 && b 18 2 == 0 && b 44 20 == 0 }

/-- Words of a position row of C elements (CP / 32). -/
def rowWords (code c : Nat) : Nat := ceilDiv (c * elementBits code) 256

/-- Elements in a word. -/
def perWord (code : Nat) : Nat := 256 / elementBits code

def Layer.hOut (l : Layer) : Nat := (l.hIn + 2 * l.py - l.dy * (l.kh - 1) - 1) / l.sy + 1
def Layer.wOut (l : Layer) : Nat := (l.wIn + 2 * l.px - l.dx * (l.kw - 1) - 1) / l.sx + 1

/-- The kernel reaches over the padded input at least once in each direction. -/
def Layer.fits (l : Layer) : Bool :=
  l.dy * (l.kh - 1) + 1 ≤ l.hIn + 2 * l.py && l.dx * (l.kw - 1) + 1 ≤ l.wIn + 2 * l.px

/-- Chunks of a tap, and c_total. -/
def Layer.tapChunks (l : Layer) : Nat := rowWords l.inFmt l.cIn
def Layer.chunks (l : Layer) : Nat := l.kh * l.kw * l.tapChunks

/-- N. -/
def Layer.columns (l : Layer) : Nat := l.hOut * l.wOut

/-- Words of the input, output, weights and POST entries of a layer. -/
def Layer.inWords (l : Layer) : Nat := l.hIn * l.wIn * l.tapChunks
def Layer.outWords (l : Layer) : Nat := l.columns * rowWords l.outFmt l.cOut
def Layer.weightWords (l : Layer) : Nat := l.cOut * l.chunks
def Layer.postWords (l : Layer) : Nat := ceilDiv l.cOut 2

/-- M × K × N. -/
def Layer.macs (l : Layer) : Nat := l.cOut * (l.kh * l.kw * l.cIn) * l.columns

/-- Integer formats. -/
def integerFormat (code : Nat) : Bool := code == 0 || code == 1 || code == 6

/-- The combinations of R280. -/
def inputsOk (i w : Nat) : Bool :=
  (i == 0 && w == 0) || (i == 1 && w == 1) || ((i == 2 || i == 3) && (w == 2 || w == 3)) || (i == 4 && w == 4) || (i == 5 && w == 5)

def formatsOk (l : Layer) : Bool :=
  inputsOk l.inFmt l.wFmt &&
    (if integerFormat l.inFmt then integerFormat l.outFmt
     else l.outFmt == 2 || l.outFmt == 3 || l.outFmt == 4 || l.outFmt == 5 || l.outFmt == 7)

/-- A clamp as a value; none for a NaN.  An infinite FP32 clamp stands as a value beyond every finite one. -/
def clampValue (l : Layer) (raw : Nat) : Option Rat :=
  if integerFormat l.outFmt then some ((signed 32 raw : Int) : Rat)
  else match decodeFloat fp32 raw with
    | (v, false) => some v
    | (v, true) => if v == 0 then none else some (if v < 0 then -pow2 200 else pow2 200)

/-- A clamp of an integer output lies within the output format (R285). -/
def Layer.clampOk (l : Layer) (raw : Nat) : Bool :=
  let half : Int := 2 ^ (elementBits l.outFmt - 1)
  !integerFormat l.outFmt || (-half ≤ signed 32 raw && signed 32 raw < half)

/-- Step 5 of R297 on a layer. -/
def layerCheck (tiling : Nat) (l : Layer) : Check Unit := do
  need (1 ≤ l.split && l.split ≤ tiling && 1 ≤ l.cIn && l.cIn ≤ 8192 && 1 ≤ l.cOut && l.cOut ≤ 4096 && 1 ≤ l.hIn && l.hIn ≤ 16384 &&
    1 ≤ l.wIn && l.wIn ≤ 16384 && l.reservedOk && (integerFormat l.outFmt || l.zeroOut == 0) &&
    l.clampOk l.clampLo && l.clampOk l.clampHi) 0x0105
  need (l.fits && ceilDiv l.chunks l.split ≤ 64 && l.chunks ≤ 1048576 &&
    (match clampValue l l.clampLo, clampValue l l.clampHi with | some a, some b => decide (a ≤ b) | _, _ => false)) 0x0114

/-! ## Arithmetic of a layer (R282 to R286) -/

/-- The flags and counts that the status record takes from arithmetic (R301). -/
structure TensorFlags where
  accSat : Bool := false
  outSat : Bool := false
  satCount : Nat := 0
  nonfinite : Nat := 0
  deriving DecidableEq, Repr

/-- Tiles in one direction of channels and columns. -/
def channelTiles (m : Nat) : Nat := ceilDiv m 64
def columnTiles (n : Nat) : Nat := ceilDiv n 1024

/-- A tile of a layer: its number, first channel, first column, first chunk and number of chunks (R287). -/
structure Tile where
  num : Nat
  channel : Nat
  column : Nat
  first : Nat
  chunks : Nat
  deriving DecidableEq, Repr

/-- Tiles of a layer. -/
def Layer.tiles (l : Layer) : Nat := channelTiles l.cOut * columnTiles l.columns * l.split

/-- Tile t of a layer. -/
def Layer.tile (l : Layer) (t : Nat) : Tile :=
  let s := t % l.split
  let from_ := s * l.chunks / l.split
  let block := t / l.split
  { num := t, channel := 64 * (block / columnTiles l.columns), column := 1024 * (block % columnTiles l.columns), first := from_,
    chunks := (s + 1) * l.chunks / l.split - from_ }

/-- The tile of a channel, a column and a split. -/
def Layer.tileOf (l : Layer) (m n s : Nat) : Tile := l.tile ((m / 64 * columnTiles l.columns + n / 1024) * l.split + s)

/-- Channels and columns of a tile. -/
def Tile.channels (t : Tile) (l : Layer) : Nat := min 64 (l.cOut - t.channel)
def Tile.columns (t : Tile) (l : Layer) : Nat := min 1024 (l.columns - t.column)

/-- A word of a panel buffer while a tile runs: the weights of a channel or the activations of a column, for a chunk, both counted within
the tile; or the accumulators of eight channels of a column (R276). -/
inductive PanelPart where
  | weights (channel chunk : Nat)
  | activations (column chunk : Nat)
  | accumulators (column group : Nat)
  deriving DecidableEq, Repr

/-- A word that the panel buffer gives back altered (R408). -/
structure Fed where
  tile : Nat
  part : PanelPart
  data : Word
  deriving DecidableEq, Repr

/-- What a layer computes on: the words of its input, weights and POST entries; its number, the fault of the arithmetic, and an altered
word of a panel buffer. -/
structure LayerData where
  layer : Layer
  x : List Word
  w : List Word
  post : List Word
  index : Nat := 0
  upset : Option Config.Upset := none
  fed : Option Fed := none
  deriving DecidableEq, Repr

/-- The raw element i of a word. -/
def rawElement (code : Nat) (w : Word) (i : Nat) : Nat := Word.get w (elementBits code * i) (elementBits code)

/-- The input word of chunk k at column n; none for a tap in the padding. -/
def LayerData.inputWord (d : LayerData) (n k : Nat) : Option Word :=
  let l := d.layer
  let tap := k / l.tapChunks
  let y := n / l.wOut * l.sy + tap / l.kw * l.dy
  let x := n % l.wOut * l.sx + tap % l.kw * l.dx
  if y < l.py || x < l.px || l.hIn + l.py ≤ y || l.wIn + l.px ≤ x then none
  else some (nth d.x (((y - l.py) * l.wIn + (x - l.px)) * l.tapChunks + k % l.tapChunks) 0)

/-- Elements of a chunk that are no padding. -/
def Layer.chunkElements (l : Layer) (k : Nat) : Nat := min (perWord l.inFmt) (l.cIn - k % l.tapChunks * perWord l.inFmt)

/-- A word of the panel buffer of a tile, which an altered word replaces. -/
def LayerData.feed (d : LayerData) (t : Tile) (part : PanelPart) (w : Word) : Word :=
  match d.fed with
  | some f => if f.tile == t.num && f.part == part then f.data else w
  | none => w

/-- The activation word of a tile for its column n and its chunk k; the padding gives zero. -/
def LayerData.activation (d : LayerData) (t : Tile) (n k : Nat) : Word :=
  d.feed t (.activations n k) ((d.inputWord (t.column + n) (t.first + k)).getD 0)

/-- The weight word of a tile for its DPU j and its chunk k. -/
def LayerData.weight (d : LayerData) (t : Tile) (j k : Nat) : Word :=
  d.feed t (.weights j k) (nth d.w ((t.channel + j) * d.layer.chunks + (t.first + k)) 0)

/-- Input i of an activation word, and weight i of a weight word, as the feed gives them (R279). -/
def Layer.act (l : Layer) (w : Word) (i : Nat) : Rat := (decodeElement l.inFmt (rawElement l.inFmt w i)).1
def Layer.wgt (l : Layer) (w : Word) (i : Nat) : Rat := (decodeElement l.wFmt (rawElement l.wFmt w i)).1

/-- The error of a faulty DPU in the sum of chunk k of its column n. -/
def LayerData.sumError (d : LayerData) (t : Tile) (j n k : Nat) : Rat :=
  match d.upset with
  | some (.dpuSum layer tile column chunk dpu error exponent) =>
    if layer == d.index && tile == t.num && dpu.val == j && column == n && chunk == k then (error : Rat) * pow2 exponent else 0
  | _ => 0

/-- S_j: the sum of the products of chunk k, exact (R282), as DPU j forms it for column n of a tile. -/
def LayerData.chunkSum (d : LayerData) (t : Tile) (j n k : Nat) : Rat :=
  let l := d.layer
  let xw := d.activation t n k
  let ww := d.weight t j k
  (List.range (l.chunkElements (t.first + k))).foldl (fun acc i => acc + l.act xw i * l.wgt ww i) (d.sumError t j n k)

/-- Sum of rounded additions, and whether one saturated. -/
def rneSum (start : Rat) : List Rat → Rat × Bool
  | [] => (start, false)
  | t :: ts =>
    let (a, s) := rne32 (start + t)
    let (b, u) := rneSum a ts
    (b, s || u)

/-- What a tile leaves in the accumulator of its DPU j for its column n, and whether it saturated (R282, R283). -/
def LayerData.tileSum (d : LayerData) (t : Tile) (j n : Nat) : Rat × Bool :=
  let sums := (List.range t.chunks).map (d.chunkSum t j n)
  if integerFormat d.layer.inFmt then (sums.foldl (· + ·) 0, false) else rneSum 0 sums

/-- The 32 bits of an accumulator. -/
def Layer.accBits (l : Layer) (v : Rat) : Nat := if integerFormat l.inFmt then unsigned 32 v.num else encodeFloat fp32 v

/-- The partial result of a tile for its DPU j and its column n; an altered word of the panel buffer replaces its accumulators. -/
def LayerData.partialSum (d : LayerData) (t : Tile) (j n : Nat) : Rat × Bool :=
  let (v, s) := d.tileSum t j n
  match d.fed with
  | some f =>
    if f.tile == t.num && f.part == .accumulators n (j / 8) then
      let raw := Word.get f.data (32 * (j % 8)) 32
      (if integerFormat d.layer.inFmt then (signed 32 raw : Rat) else (decodeFloat fp32 raw).1, s)
    else (v, s)
  | none => (v, s)

/-- The accumulator of channel m and column n, split by split (R284), and whether it saturated. -/
def LayerData.accumulate (d : LayerData) (m n : Nat) : Rat × Bool :=
  let l := d.layer
  let parts := (List.range l.split).map fun s => d.partialSum (l.tileOf m n s) (m % 64) (n % 1024)
  if integerFormat l.inFmt then
    let (v, s) := runFx (sat32 (parts.foldl (fun a p => a + p.1) (0 : Rat)).num)
    ((v : Rat), s)
  else
    match parts with
    | [] => (0, false)
    | p :: ps =>
      let (y, s) := rneSum p.1 (ps.map (·.1))
      (y, s || parts.any (·.2))

/-- The output stage for an accumulator of channel m: the element's bits, and whether ACC_SAT or OUT_SAT is set (R285, R286). -/
def LayerData.output (d : LayerData) (m : Nat) (acc : Rat) : Nat × Bool × Bool :=
  let l := d.layer
  let e := Word.get (nth d.post (m / 2) 0) (128 * (m % 2)) 128
  let lo := (clampValue l l.clampLo).getD 0
  let hi := (clampValue l l.clampHi).getD 0
  match floatFormat l.outFmt with
  | none =>
    let ((a, y), s) := runFx (do
      let a ← sat32 (acc.num + signed 32 e)
      pure (a, a * signed 32 (e >>> 32)) : Fx (Int × Int))
    let shift := bits e 64 6
    let t := if shift == 0 then y else (y + 2 ^ (shift - 1)) >>> shift
    let v := min (max (t + l.zeroOut) lo.num) hi.num
    let _ := a
    let (v, s2) := if l.outFmt == 6 then runFx (sat32 v) else (v, false)
    (unsigned (elementBits l.outFmt) v, s || s2, false)
  | some f =>
    let bias := (decodeFloat fp32 (bits e 0 32)).1
    let scale := (decodeFloat fp32 (bits e 32 32)).1
    let (u, s1) := rne32 (acc * scale)
    let (v, s2) := rne32 (u + bias)
    let y := min (max v lo) hi
    if l.outFmt == 7 then
      (if fp32.largest < y.abs then at_ (b2n (decide (y < 0))) 31 1 + 0x7F800000 else encodeFloat fp32 y, false, s1 || s2)
    else
      let (z, s3) := roundFloat f y
      (encodeFloat f z, false, s1 || s2 || s3 || f.largest < y.abs)

/-- One output element. -/
def LayerData.element (d : LayerData) (m n : Nat) : Nat × Bool × Bool :=
  let (acc, s) := d.accumulate m n
  let (v, a, o) := d.output m acc
  (v, s || a, o)

/-- Inputs that the feeds of the tiles replace, activations and weights (R279). -/
def LayerData.replaced (d : LayerData) : Nat :=
  let l := d.layer
  let count (code : Nat) (w : Word) (n : Nat) : Nat :=
    ((List.range n).filter fun i => (decodeElement code (rawElement code w i)).2).length
  if integerFormat l.inFmt then 0
  else (((List.range l.tiles).map l.tile).map fun t =>
    ((List.range t.chunks).map fun k =>
      ((List.range (t.columns l)).map fun n => count l.inFmt (d.activation t n k) (l.chunkElements (t.first + k))).sum +
      ((List.range (t.channels l)).map fun j => count l.wFmt (d.weight t j k) (l.chunkElements (t.first + k))).sum).sum).sum

/-- Flags of a list of elements. -/
def noteFlags (f : TensorFlags) (es : List (Nat × Bool × Bool)) : TensorFlags :=
  es.foldl (fun f (_, a, o) =>
    { f with accSat := f.accSat || a, outSat := f.outSat || o, satCount := satAdd 4294967295 f.satCount (b2n (a || o)) }) f

/-- The output words of a layer, position by position, padding zero (R281). -/
def LayerData.run (d : LayerData) (f : TensorFlags) : List Word × TensorFlags :=
  let l := d.layer
  let rows := (List.range l.columns).map fun n => (List.range l.cOut).map fun m => d.element m n
  let f := noteFlags { f with nonfinite := satAdd 4294967295 f.nonfinite d.replaced } rows.flatten
  (rows.flatMap fun r => packWords (elementBits l.outFmt) (perWord l.outFmt) (rowWords l.outFmt l.cOut) (r.map (·.1)), f)

/-! ## The arithmetic check (R290 to R292) -/

/-- p of R290. -/
def residueModulus : Nat := 2 ^ 31 - 1

/-- R(v) of a value n × 2^E (R290). -/
def residue (v : Rat) : Nat :=
  (v.num % residueModulus).toNat * 2 ^ ((-(v.den.log2 : Int)) % 31).toNat % residueModulus

/-- A0 and A1 of a tile: the residues of the chunk sums as the DPUs form them, each under the weight of its DPU (R291). -/
def LayerData.dpuSide (d : LayerData) (t : Tile) (weigh : Nat → Nat) : Nat :=
  ((List.range t.chunks).map fun k => ((List.range (t.columns d.layer)).map fun n =>
    ((List.range (t.channels d.layer)).map fun j => weigh j * residue (d.chunkSum t j n k)).sum).sum).sum % residueModulus

/-- C0 and C1 of a tile: the dot products of a checksum unit, from the residue of its weighted sum of the weights for each lane and the
residue of the activation (R291). -/
def LayerData.checksumSide (d : LayerData) (t : Tile) (weigh : Nat → Nat) : Nat :=
  let l := d.layer
  ((List.range t.chunks).map fun k => ((List.range (l.chunkElements (t.first + k))).map fun i =>
    let column := residue (((List.range (t.channels l)).map fun j => (weigh j : Rat) * l.wgt (d.weight t j k) i).foldl (· + ·) 0)
    ((List.range (t.columns l)).map fun n => column * residue (l.act (d.activation t n k) i)).sum).sum).sum % residueModulus

/-- d0 or d1 of a tile. -/
def LayerData.difference (d : LayerData) (t : Tile) (weigh : Nat → Nat) : Nat :=
  (d.dpuSide t weigh + residueModulus - d.checksumSide t weigh) % residueModulus

/-- FAIL_DPU of the two differences; none where the check passes (R291). -/
def failDpu (d0 d1 : Nat) : Option Nat :=
  if d0 == 0 then (if d1 == 0 then none else some 0xFF)
  else
    let q := d1 * powMod residueModulus d0 (residueModulus - 2) % residueModulus
    some (if 1 ≤ q && q ≤ 64 then q - 1 else 0xFF)

/-- A failed check: the tile, FAIL_DPU, and whether the two copies of a stage differed (R292). -/
structure TileFail where
  tile : Nat
  dpu : Nat
  copies : Bool
  deriving DecidableEq, Repr

/-- The failed check of a layer.  The two sides of R291 agree on every tile whose sums are exact, so they are formed for the tile of a
faulty sum alone; `output`: the layer has an output stage. -/
def LayerData.failedCheck (d : LayerData) (output : Bool) : Option TileFail :=
  match d.upset with
  | some (.dpuSum layer tile _ _ _ _ _) =>
    let t := d.layer.tile tile
    if layer == d.index && tile < d.layer.tiles then
      (failDpu (d.difference t fun _ => 1) (d.difference t (· + 1))).map fun q => ⟨tile, q, false⟩
    else none
  | some (.accumulation layer tile dpu) => if layer == d.index && tile < d.layer.tiles then some ⟨tile, dpu.val, true⟩ else none
  | some (.outputStage layer tile) => if output && layer == d.index && tile < d.layer.tiles then some ⟨tile, 0xFE, true⟩ else none
  | _ => none

/-! ## The panel buffers (R276, R408; assumption log 75) -/

/-- The word of the panel buffer that a part takes, in the given half. -/
def PanelPart.index (half : Nat) : PanelPart → Nat
  | .accumulators n g => 8 * n + g
  | .weights j k => 8192 + 4096 * half + 64 * j + k
  | .activations n k => 16384 + 1024 * (k % 16) + n

/-- The parts that a tile writes, in order: the fill port its weights and activations, the panel its accumulators. -/
def Tile.parts (t : Tile) (l : Layer) : List PanelPart :=
  ((List.range t.chunks).flatMap fun k => (List.range (t.channels l)).map fun j => .weights j k) ++
  ((List.range t.chunks).flatMap fun k => (List.range (t.columns l)).map fun n => .activations n k) ++
  (List.range (t.columns l)).flatMap fun n => (List.range (ceilDiv (t.channels l) 8)).map fun g => .accumulators n g

/-- The word of a part. -/
def LayerData.partWord (d : LayerData) (t : Tile) : PanelPart → Word
  | .weights j k => d.weight t j k
  | .activations n k => d.activation t n k
  | .accumulators n g => word (((List.range (min 8 (t.channels d.layer - 8 * g))).map fun i =>
      at_ (d.layer.accBits (d.tileSum t (8 * g + i) n).1) (32 * i) 32).sum)

/-- The panel that runs tile t of an item, on its panels in ascending order (R288). -/
def panelOf (panels : List Nat) (t : Nat) : Nat := nth panels (t % panels.length) 0

/-- The first write of a layer to a panel buffer that an armed flip takes: tile, part and word key. -/
def LayerData.flipped (d : LayerData) (panels : List Nat) (f : Flip) : Option (Tile × PanelPart × Nat) :=
  ((List.range d.layer.tiles).filter fun t => panelOf panels t == f.inst).findSome? fun i =>
    let t := d.layer.tile i
    ((t.parts d.layer).map fun p => (t, p, memKey memPanel f.inst (p.index (i / panels.length % 2)))).find? fun x => flipTakes f x.2.2

/-- The panel buffers carry a layer: the word that an armed flip takes is written and read back under its code (R294, R383). -/
def throughPanels (r : Requester) (panels : List Nat) (d : LayerData) : Run LayerData := do
  let s ← get
  match s.memCtl.flip.bind (d.flipped panels) with
  | none => pure d
  | some (t, part, key) => do
    change (writeWord key (d.partWord t part))
    let g ← stateOp (readWord r key)
    if g.bad then poisoned else pure { d with fed := some ⟨t.num, part, g.data⟩ }

/-! ## Tiling and nominal time (R287, R302) -/

/-- P_t for a tiling that an item runs under. -/
def State.panelsPresent (s : State) : Nat := if s.grade == .ft9_64I then 16 else 12

/-- P_t of MATMUL in a job. -/
def State.matmulTiling (s : State) (j : Job) : Nat := if s.grade == .ft9_64I && !j.reproducible then 16 else 12

/-- Chunks and columns of tile t under S splits. -/
def tileSize (m n c split t : Nat) : Nat × Nat :=
  let _ := m
  let s := t % split
  let nt := t / split % columnTiles n
  ((s + 1) * c / split - s * c / split, min 1024 (n - 1024 * nt))

/-- Arithmetic clocks of a tile. -/
def tileClocks (w : Nat) (far : Bool) (cn : Nat × Nat) : Nat :=
  let near := cn.1 * cn.2 + 64
  if far then max near (25 * cn.1 * w) else near

/-- Arithmetic clocks of a layer of M channels, N columns and c chunks on w panels; `far`: weights in LPDDR5. -/
def layerClocks (m n c split w : Nat) (far : Bool) : Nat :=
  let t := channelTiles m * columnTiles n * split
  (List.range (ceilDiv t w)).foldl (fun acc wave =>
    acc + ((List.range (min w (t - w * wave))).map fun i => tileClocks w far (tileSize m n c split (w * wave + i))).foldl max 0) 200

/-- The limit of R27, 20 µs, in arithmetic clocks. -/
def tensorLimit : Nat := 44000

/-! ## The status record (R301) -/

/-- A failed check of an item: layer, panel, FAIL_DPU, and whether the two copies of a stage differed. -/
structure ChecksumFail where
  layer : Nat
  panel : Nat
  dpu : Nat
  copies : Bool
  deriving DecidableEq, Repr

/-- How the layers of an item ended: all ran, one met poison (R294), or one failed its check (R293). -/
inductive TensorEnd where
  | ran
  | poisoned (layer : Nat)
  | failed (c : ChecksumFail)
  deriving DecidableEq, Repr

/-- FAIL_LAYER with the check's own fields: CHECK_FAIL, DUP_FAIL, FAIL_PANEL and FAIL_DPU. -/
def TensorEnd.fields : TensorEnd → Nat
  | .ran => at_ 0xFFFF 96 16
  | .poisoned l => at_ l 96 16
  | .failed c => at_ (b2n !c.copies) 3 1 ||| at_ (b2n c.copies) 4 1 ||| at_ c.layer 96 16 ||| at_ c.panel 112 4 ||| at_ c.dpu 116 8

/-- The status word. -/
def tensorStatus (f : TensorFlags) (reduced : Bool) (e : TensorEnd) (macs clocks : Nat) : Word :=
  word (at_ (b2n f.accSat) 0 1 ||| at_ (b2n f.outSat) 1 1 ||| at_ (b2n (f.nonfinite != 0)) 2 1 ||| at_ (b2n reduced) 5 1 |||
    at_ f.satCount 32 32 ||| at_ f.nonfinite 64 32 ||| e.fields ||| at_ macs 128 64 ||| at_ clocks 192 32)

/-- The result of an item with the digest of its output (R293, R294). -/
def TensorEnd.result (digest : Nat) : TensorEnd → Result
  | .ran => done .ok 0 0 0 digest
  | .poisoned _ => poisonedResult digest
  | .failed c => done .disagree 0x0601 (at_ c.panel 8 8 ||| c.dpu) c.layer digest

/-- What a failed check does to the engine: alarm 0x0601, its counter, and the exclusion of the panel (R293). -/
def checkFailed (c : ChecksumFail) (s : State) : State :=
  raiseAlarm 0x0601 (at_ c.panel 8 8 ||| c.dpu) c.layer { s with
    te.excluded := s.te.excluded ||| BitVec.ofNat 16 (2 ^ c.panel)
    te.residueFails := satAdd 65535 s.te.residueFails (b2n !c.copies)
    te.duplicateFails := satAdd 65535 s.te.duplicateFails (b2n c.copies)
    te.lastFail := BitVec.ofNat 32 (at_ c.panel 0 4 ||| at_ c.dpu 4 8 ||| at_ c.layer 16 16) }

/-- The panel and layer that a failed tile concerns. -/
def TileFail.on (t : TileFail) (panels : List Nat) (layer : Nat) : ChecksumFail := ⟨layer, panelOf panels t.tile, t.dpu, t.copies⟩

/-- CLOCKS of an item: a free value (assumption log 15). -/
def tensorClocks (s : State) : State × Nat :=
  ({ s with freeCount := s.freeCount + 1 }, (Config.freeValue s.freeCount).toNat % 2 ^ 32)

/-- A Tensor item completes: its counters. -/
def countTensor (f : TensorFlags) (macs clocks width : Nat) (s : State) : State :=
  let c := s.te
  { s with te := { c with
      items := satAdd 4294967295 c.items 1
      macs := satAdd (2 ^ 64 - 1) c.macs macs
      busy := satAdd (2 ^ 64 - 1) c.busy (clocks * width)
      accSat := satAdd 65535 c.accSat (b2n f.accSat)
      nonfinite := satAdd 65535 c.nonfinite (b2n (f.nonfinite != 0)) } }

/-- Panels held by an item, ascending. -/
def State.heldPanels (s : State) (id : Nat) : List Nat := (List.range 16).filter fun n => s.shu.panels.contains (n, id)
def State.panelsHeld (s : State) (id : Nat) : Nat := (s.heldPanels id).length

/-! ## Network images (R295 to R297) -/

/-- Sections 1 to 3 of a network image: OFFSET and LENGTH. -/
def netSection (h : List Word) (i : Nat) : Nat × Nat := (headBytes h (4 + 12 * i) 8, headBytes h (12 + 12 * i) 4)

/-- Step 1 of R297; `words` are those of the buffer. -/
def netHeaderCheck (words : Nat) (h : List Word) : Check Unit := do
  countField h 8 2 1024
  eachCheck (fun i => lengthField h (12 + 12 * i) 4 1) [1, 2, 3]
  lengthField h 64 8 181
  rangeField h 7 1 0 3
  need (headBytes h 6 1 == 12 || headBytes h 6 1 == 16) 0x0105
  need (headBytes h 0 4 == 0x46544E31 && headBytes h 4 2 == 1) 0x0105
  zeroField h 10 6
  zeroField h 52 12
  zeroField h 72 184
  zeroField h 320 192
  let secs := [1, 2, 3].map (netSection h)
  need ((netSection h 1).2 == 2 * headBytes h 8 2) 0x0105
  need (secs.all fun x => 181 ≤ x.1) 0x0105
  need (secs.all (fun x => x.1 + x.2 ≤ headBytes h 64 8) && headBytes h 64 8 ≤ words) 0x0101

/-- The layers of a LAYERS section. -/
def layersOf (ws : List Word) (n : Nat) : List Layer :=
  (List.range n).map fun l => layerOf ((nth ws (2 * l) 0).toNat + 2 ^ 256 * (nth ws (2 * l + 1) 0).toNat)

/-- A POST entry of a layer is well formed: finite, or SHIFT in range; its other bits are zero. -/
def postOk (l : Layer) (e : Nat) : Bool :=
  if integerFormat l.outFmt then bits e 64 6 ≤ 62 && e >>> 70 == 0
  else !(decodeFloat fp32 (bits e 0 32)).2 && !(decodeFloat fp32 (bits e 32 32)).2 && e >>> 64 == 0

/-- Step 7 of R297 on a layer: its extents, and its finite values. -/
def layerExtents (weights post : List Word) (l : Layer) : Check Unit := do
  need (l.wAt + l.weightWords ≤ weights.length && l.pAt + l.postWords ≤ post.length) 0x0101
  let finite := (List.range l.weightWords).all fun i =>
    (List.range (l.chunkElements i)).all fun e => !(decodeElement l.wFmt (rawElement l.wFmt (nth weights (l.wAt + i) 0) e)).2
  need (finite && (List.range l.cOut).all fun m =>
    postOk l (Word.get (nth post (l.pAt + m / 2) 0) (128 * (m % 2)) 128)) 0x0105

/-- A check over layers, in order; DETAIL_A the step, DETAIL_B the layer. -/
def eachLayer (step : Nat) (f : Layer → Check Unit) : List Layer → Nat → Check Unit
  | [], _ => .ok ()
  | l :: t, i => match f l with
    | .ok _ => eachLayer step f t (i + 1)
    | .error e => .error { e with detailA := step, detailB := i }

/-- A failed step on the header. -/
def atStep (step : Nat) (c : Check Unit) : Check Unit :=
  match c with
  | .ok _ => .ok ()
  | .error e => .error { e with detailA := step, detailB := 0xFFFF }

/-- Steps 1 to 7 of R297 on a buffer. -/
def networkSteps (netId : Nat) (sp : Span) : Run Network := do
  let r : Requester := { num := 1 }
  let h ← getAll r sp.key (min 16 sp.len) 1 0xFFFF
  checkOp fun _ => atStep 1 (netHeaderCheck sp.len h)
  let tiling := headBytes h 6 1
  let s ← get
  checkOp fun _ => atStep 2 (need (tiling == 12 || s.grade == .ft9_64I) 0x0102)
  let block ← getAll r (sp.key + 16) 165 3 0xFFFF
  match signatureCheck (s.patternKey (headBytes h 7 1)) h block with
  | .ok _ => pure ()
  | .error e => throw { reason := 0x0602, detailA := 3, detailB := e.detailA }
  let secs ← [1, 2, 3].mapM fun i => getAll r (sp.key + (netSection h i).1) (netSection h i).2 4 0xFFFF
  ensure (ofBytes (imageDigest secs) == headBytes h 256 64) 0x0602 4 0xFFFF
  let ls := layersOf (nth secs 0 []) (headBytes h 8 2)
  checkOp fun _ => eachLayer 5 (layerCheck tiling) ls 0
  checkOp fun _ => eachLayer 6 (fun l => need (formatsOk l) 0x0603) ls 0
  checkOp fun _ => eachLayer 7 (layerExtents (nth secs 1 []) (nth secs 2 [])) ls 0
  pure { netId := netId, base := sp.key, size := sp.len, tiling := tiling, layers := ls.length,
         layersAt := sp.key + (netSection h 1).1, weightsAt := sp.key + (netSection h 2).1, postAt := sp.key + (netSection h 3).1 }

/-! ## NETWORK_SEGMENT (R299) -/

/-- FIRST and LAST of a segment. -/
def segmentRange (e : Entry) : Nat × Nat := (bits (Entry.param e) 6 10, bits (Entry.param e) 16 10)

/-- The network that an entry names. -/
def Job.network (j : Job) (netId : Nat) : Option Network := j.networks.find? (·.netId == netId)

/-- Read a layer record of a network. -/
def getLayer (r : Requester) (n : Network) (l : Nat) : Run Layer := do
  let ws ← getAll r (n.layersAt + 2 * l) 2
  pure (layerOf ((nth ws 0 0).toNat + 2 ^ 256 * (nth ws 1 0).toNat))

/-- Run layer i on its operands; a layer that fails its check writes nothing (assumption log 69). -/
def runLayer (r : Requester) (n : Network) (panels : List Nat) (input work : Span) (i : Nat) (l : Layer) (f : TensorFlags) :
    Run (TensorFlags × Option ChecksumFail) := do
  let src := if l.src == 0 then input else work
  let x ← getAll r (src.key + l.inAt) l.inWords
  let w ← getAll r (n.weightsAt + l.wAt) l.weightWords
  let p ← getAll r (n.postAt + l.pAt) l.postWords
  let s ← get
  let d ← throughPanels r panels { layer := l, x := x, w := w, post := p, index := i, upset := s.upset }
  match d.failedCheck true with
  | some c => pure (f, some (c.on panels i))
  | none => do
    let (out, f) := d.run f
    putWords (work.key + l.outAt) out
    pure (f, none)

/-- What a segment has done so far: flags, MACS, and how it ended. -/
structure SegmentRun where
  flags : TensorFlags
  macs : Nat
  ended : TensorEnd
  deriving DecidableEq, Repr

/-- Run layers in order; a layer that meets poison or fails its check ends the run (R293, R294). -/
def runLayers (r : Requester) (n : Network) (panels : List Nat) (input work : Span) : List Nat → SegmentRun → State → State × SegmentRun
  | [], g, s => (s, g)
  | i :: t, g, s =>
    match runProg (do
        let l ← getLayer r n i
        let f ← runLayer r n panels input work i l g.flags
        pure (l, f)) s with
    | (s, .ok (l, f, none)) => runLayers r n panels input work t { g with flags := f, macs := g.macs + l.macs } s
    | (s, .ok (_, _, some c)) => (checkFailed c s, { g with ended := .failed c })
    | (s, .error _) => (s, { g with ended := .poisoned i })

/-- The data of a word as its stored contents give them, without an access. -/
def State.storedData (s : State) (k : Nat) : Option Word :=
  match (s.mem.get k).map (decodeStored (s.rowCol k)) with
  | some (.clean d) => some d
  | some (.corrected d _ _) => some d
  | _ => none

/-- The output extent of a layer within OPERAND1: the whole operand where the layer record cannot be read. -/
def outputExtent (n : Network) (work : Span) (l : Nat) (s : State) : Nat × Nat :=
  match s.storedData (n.layersAt + 2 * l), s.storedData (n.layersAt + 2 * l + 1) with
  | some a, some b =>
    let x := layerOf (a.toNat + 2 ^ 256 * b.toNat)
    (x.outAt, min x.outWords (work.len - x.outAt))
  | _, _ => (0, work.len)

/-- NETWORK_SEGMENT.  The output extent is that of the last layer (R293, R294, R479). -/
def segmentItem (it : Item) (j : Job) (s : State) : State × Option Result :=
  match j.network (bits (Entry.param it.entry) 0 6), j.operandSpan it.entry 0, j.operandSpan it.entry 1, j.operandSpan it.entry 2 with
  | some n, some input, some work, some out =>
    let (first, last) := segmentRange it.entry
    let r := it.requester
    let panels := s.heldPanels it.id
    let w := panels.length
    let (s, g) := runLayers r n panels input work ((List.range (last + 1 - first)).map (first + ·)) ⟨{}, 0, .ran⟩ s
    let asked := bits (Entry.param it.entry) 26 5
    let reduced := w < (if asked == 0 then n.tiling else asked)
    let (s, clocks) := tensorClocks s
    let (at1, len) := outputExtent n work last s
    let s := if g.ended == .ran then s else poisonWords (work.key + at1) len s
    let s := countTensor g.flags g.macs clocks w
      (writeWord out.key (tensorStatus g.flags reduced g.ended g.macs clocks) s)
    let body := (List.range len).map fun i => match s.storedData (work.key + at1 + i) with
      | some d => ⟨d, false⟩
      | none => ⟨0, true⟩
    (s, some (g.ended.result (digestGots j 1 at1 body)))
  | _, _, _, _ => (s, some (Fail.result { reason := 0x010E }))

/-! ## MATMUL (R300) -/

/-- The parameter block of MATMUL. -/
structure MatmulParam where
  m : Nat
  k : Nat
  n : Nat
  inFmt : Nat
  wFmt : Nat
  w : Nat
  reserved : Bool
  deriving DecidableEq, Repr

def matmulParam (p : Nat) : MatmulParam :=
  { m := bits p 0 16, k := bits p 32 32, n := bits p 64 32, inFmt := bits p 96 8, wFmt := bits p 104 8, w := bits p 112 5,
    reserved := bits p 16 16 != 0 || bits p 117 139 != 0 }

/-- The layer that a matrix product is: a 1 × 1 convolution over N positions. -/
def MatmulParam.layer (p : MatmulParam) (split : Nat) : Layer :=
  { inFmt := p.inFmt, wFmt := p.wFmt, outFmt := if integerFormat p.inFmt then 6 else 7, split := split, cIn := p.k, cOut := p.m, hIn := 1,
    wIn := p.n, kh := 1, kw := 1, sy := 1, sx := 1, py := 0, px := 0, dy := 1, dx := 1, src := 0, zeroOut := 0, inAt := 0, outAt := 0,
    wAt := 0, pAt := 0, clampLo := 0, clampHi := 0, reservedOk := true }

/-- S of R300. -/
def MatmulParam.split (p : MatmulParam) (pt : Nat) : Nat :=
  let t1 := channelTiles p.m * columnTiles p.n
  let c := rowWords p.inFmt p.k
  if pt ≤ t1 then 1 else min (pt / t1) c

/-- The checks that depend on the parameter block; `vary`: the product may vary, by VARY or by the mode of the job (R79). -/
def matmulCheck (pt : Nat) (vary : Bool) (p : MatmulParam) (x w y : Span) : Check Unit := do
  countOk 16 p.m
  countOk 32 p.k
  countOk 32 p.n
  need (!p.reserved && p.w ≤ pt) 0x0105
  need (inputsOk p.inFmt p.wFmt) 0x0603
  need (p.m ≤ 4096 && p.k ≤ 1048576 && p.n ≤ 1048576) 0x0106
  let l := p.layer (p.split pt)
  need (l.inWords ≤ x.len && l.weightWords ≤ w.len && 1 + l.outWords ≤ y.len) 0x0101
  need (ceilDiv l.chunks l.split ≤ 64) 0x0114
  need (440 + layerClocks p.m p.n l.chunks l.split (if p.w == 0 then pt else p.w) (bspWords ≤ w.key) ≤ tensorLimit) 0x0110
  need (integerFormat p.inFmt || vary) 0x010D

/-- The accumulators of a product as its output elements. -/
def LayerData.products (d : LayerData) (f : TensorFlags) : List Word × TensorFlags :=
  let l := d.layer
  let rows := (List.range l.columns).map fun n => (List.range l.cOut).map fun m =>
    let (v, s) := d.accumulate m n
    (l.accBits v, s, false)
  let f := noteFlags { f with nonfinite := satAdd 4294967295 f.nonfinite d.replaced } rows.flatten
  (rows.flatMap fun r => packWords 32 8 (rowWords 6 l.cOut) (r.map (·.1)), f)

/-- A product ends: its status record, the words of Y, its counters and its result. -/
def matmulEnd (j : Job) (y : Span) (e : TensorEnd) (f : TensorFlags) (macs held : Nat) (reduced : Bool) (clocks : Nat) (gs : List Got) :
    Run Result := do
  change fun s => countTensor f macs clocks held
    (writeGots (y.key + 1) gs (writeWord y.key (tensorStatus f reduced e macs clocks) s))
  pure (e.result (digestGots j 3 1 gs))

/-- The operands of a product, through the panel buffers; none where one of their words carries the poison mark. -/
def matmulData (r : Requester) (panels : List Nat) (l : Layer) (x w : Span) (s : State) : State × Option LayerData :=
  match runProg (do
      let xs ← getAll r x.key l.inWords
      let ws ← getAll r w.key l.weightWords
      let s ← get
      throughPanels r panels { layer := l, x := xs, w := ws, post := [], upset := s.upset }) s with
  | (s, .ok d) => (s, some d)
  | (s, .error _) => (s, none)

/-- MATMUL for an item; a failed check writes nothing.  A poisoned parameter block leaves the extent of Y unknown: all of OPERAND3
after the status record takes the poison mark. -/
def matmulRun (it : Item) (j : Job) (param x w y : Span) : Run Result := do
  let r := it.requester
  let b ← stateOp (readWord r param.key)
  let s ← get
  let panels := s.heldPanels it.id
  let held := panels.length
  let pt := s.matmulTiling j
  if b.bad then
    let clocks ← stateOp tensorClocks
    matmulEnd j y (.poisoned 0) {} 0 held (held < pt) clocks (poisonGots (y.len - 1))
  else
  let p := matmulParam b.data.toNat
  checkOp fun _ => matmulCheck pt (Entry.vary it.entry || j.reproducible) p x w y
  let l := p.layer (p.split pt)
  let reduced := held < (if p.w == 0 then pt else p.w)
  let ins ← stateOp (matmulData r panels l x w)
  let clocks ← stateOp tensorClocks
  match ins with
  | some d => match d.failedCheck false with
    | none =>
      let (out, f) := d.products {}
      matmulEnd j y .ran f l.macs held reduced clocks (clean out)
    | some t => do
      change (checkFailed (t.on panels 0))
      matmulEnd j y (.failed (t.on panels 0)) {} 0 held reduced clocks (poisonGots l.outWords)
  | none => matmulEnd j y (.poisoned 0) {} 0 held reduced clocks (poisonGots l.outWords)

/-- MATMUL. -/
def matmulItem (it : Item) (j : Job) (s : State) : State × Option Result :=
  match j.operandSpan it.entry 0, j.operandSpan it.entry 1, j.operandSpan it.entry 2, j.operandSpan it.entry 3 with
  | some p, some x, some w, some y => itemProg (matmulRun it j p x w y) s
  | _, _, _, _ => (s, some (Fail.result { reason := 0x0105 }))

end Sys2Proof.Machine
end

