-- ==== Sys2Proof/Machine/Registers.lean ====
section
/-!
DEFINITION. The registers of BAR0 (R490 to R495 and the register tables of the chapters): what each offset reads as.
A register is given by its offset; none stands for a reserved address.  Mirrors are read at the instant of the access (assumption
log 20).
-/

namespace Sys2Proof.Machine

open Sys2Proof

/-- A saturating count as a field. -/
def capped (n len : Nat) : Nat := min n (2 ^ len - 1)

/-- Two 16-bit counters in one register. -/
def pair16 (lo hi : Nat) : Nat := capped lo 16 + capped hi 16 <<< 16

/-- Four 8-bit counters in one register. -/
def quad8 (a b c d : Nat) : Nat := capped a 8 + capped b 8 <<< 8 + capped c 8 <<< 16 + capped d 8 <<< 24

/-- The low and high halves of a 64-bit value. -/
def lo32 (n : Nat) : Nat := n % 2 ^ 32
def hi32 (n : Nat) : Nat := n >>> 32 % 2 ^ 32

/-- A mask of the numbers below `n` that a test selects. -/
def maskOf (n : Nat) (p : Nat → Bool) : Nat := ((List.range n).filter p).foldl (fun a i => a + 2 ^ i) 0

/-- Number of work items that a test selects. -/
def State.countItems (s : State) (p : Item → Bool) : Nat := (s.shu.items.filter p).length

/-- An engine runs an item. -/
def State.runs (s : State) (e : Engine) : Bool := s.shu.items.any fun it => it.phase == .running && it.engine == some e

/-! ## Global and identity block (R493) -/

/-- LCC_DEVICE_ID.GRADE. -/
def gradeCode : Grade → Nat
  | .ft9_64I => 0 | .ft9_48I => 1

/-- MBX_FW_STATUS.STAGE. -/
def stageCode : FwStage → Nat
  | .bootRom => 0 | .loading => 1 | .running => 2 | .updating => 3

/-- The Die Link carries traffic over one module only. -/
def State.linkDegraded (s : State) : Bool := s.link.modules == 1 || s.link.modules == 2

/-- The Die Link is up. -/
def State.linkUp? (s : State) : Bool := s.link.modules != 0

/-- LCC_SUMMARY. -/
def summaryReg (s : State) : Nat :=
  stageCode s.fw.stage + s.smState <<< 2 + b2n s.activeJob.isSome <<< 4 + b2n s.memCtl.maintenance <<< 5 +
    b2n s.memCtl.clearDone <<< 6 + b2n s.linkDegraded <<< 7 + b2n (s.alarms != []) <<< 8 + b2n s.firstFault.isSome <<< 9 +
    b2n s.pat.active.isSome <<< 10 + b2n (s.line.state == .lost) <<< 11

/-- The global block. -/
def globalReg (s : State) (o : Nat) : Option Nat :=
  match o with
  | 0x00 => some (0xF9 + gradeCode s.grade <<< 16 + s.lcc.fuses.stepping.toNat <<< 20)
  | 0x04 => some 0x101
  | 0x08 => some (lo32 s.lcc.fuses.serial.toNat)
  | 0x0C => some (hi32 s.lcc.fuses.serial.toNat)
  | 0x10 => some (s.instances .workCore + s.instances .panel <<< 7 + 8 <<< 12 + 7 <<< 16 + 4 <<< 19)
  | 0x14 => some (summaryReg s)
  | 0x18 => some s.lcc.scratch.toNat
  | _ => none

/-! ## Mailbox block (file 16) -/

/-- MBX_n_STATUS. -/
def mbxStatusReg (b : Mailbox) : Nat :=
  b2n b.busy + b2n b.done <<< 1 + b2n b.collision <<< 2 + b2n b.immediate <<< 3 + b.seq.toNat <<< 16

/-- The registers of one mailbox. -/
def mailboxReg (b : Mailbox) (o : Nat) : Option Nat :=
  if o == 0x00 then some 0
  else if o == 0x04 then some (mbxStatusReg b)
  else if 0x20 ≤ o && o < 0x60 && o % 4 == 0 then some (nth b.args ((o - 0x20) / 4) 0).toNat
  else if 0x60 ≤ o && o < 0x80 && o % 4 == 0 then some (lane32 b.result ((o - 0x60) / 4))
  else none

/-- MBX_ALARM_STICKY_m. -/
def stickyReg (s : State) (m : Nat) : Nat := maskOf 32 fun b => s.alarms.any (·.cls == 32 * m + b)

/-- The record of one alarm class. -/
def alarmReg (s : State) (c o : Nat) : Option Nat :=
  let f (g : AlarmRecord → Nat) : Option Nat := some (match s.alarm? c with | some r => g r | none => 0)
  match o with
  | 0x00 => f (·.count)
  | 0x04 => f fun r => pair16 r.detailA.toNat r.detailB.toNat
  | 0x08 => f fun r => lo32 r.gcnt.toNat
  | 0x0C => f fun r => hi32 r.gcnt.toNat
  | 0x10 => f fun r => lo32 r.lpos.toNat
  | 0x14 => f fun r => hi32 r.lpos.toNat
  | _ => none

/-- The First Fault record. -/
def firstFaultReg (s : State) (o : Nat) : Option Nat :=
  let f (g : FirstFault → Nat) : Option Nat := some (match s.firstFault with | some r => g r | none => 0)
  match o with
  | 0x20 => f fun r => r.cls + 2 ^ 31
  | 0x24 => f fun r => pair16 r.detailA.toNat r.detailB.toNat
  | 0x28 => f fun r => lo32 r.gcnt.toNat
  | 0x2C => f fun r => hi32 r.gcnt.toNat
  | 0x30 => f fun r => lo32 r.lpos.toNat
  | 0x34 => f fun r => hi32 r.lpos.toNat
  | _ => none

/-- Ring bases and indices, drops, holdoff and trace. -/
def ringReg (s : State) (o : Nat) : Option Nat :=
  let r := s.rings
  match o with
  | 0x00 => some 0x300000
  | 0x04 => some 0x320000
  | 0x08 => some 0x360000
  | 0x0C => some 0x380000
  | 0x10 => some r.sq.tail.toNat
  | 0x14 => some r.sq.head.toNat
  | 0x18 => some r.cq.tail.toNat
  | 0x1C => some r.cq.head.toNat
  | 0x20 => some r.eq.tail.toNat
  | 0x24 => some r.eq.head.toNat
  | 0x28 => some r.lq.tail.toNat
  | 0x2C => some r.lq.head.toNat
  | 0x30 => some (pair16 r.cq.drops r.eq.drops)
  | 0x34 => some (capped r.lq.drops 32)
  | 0x38 => some (pair16 r.indexErrors r.entryErrors)
  | 0x3C => some s.link.holdoff.toNat
  | 0x40 => some s.fw.traceMask.toNat
  | _ => none

/-- Firmware and link status. -/
def firmwareReg (s : State) (o : Nat) : Option Nat :=
  match o with
  | 0x00 => some (stageCode s.fw.stage + s.fw.ready.toNat <<< 2 + s.fw.held.toNat <<< 6 + s.fw.lastFail.toNat <<< 16)
  | 0x04 => some s.fw.version.toNat
  | 0x08 => some (lo32 s.fw.digest.toNat)
  | 0x0C => some (hi32 s.fw.digest.toNat)
  | 0x10 => some (quad8 (nth s.fw.expiries 0 0) (nth s.fw.expiries 1 0) (nth s.fw.expiries 2 0) (nth s.fw.expiries 3 0))
  | 0x14 => some (s.link.modules.toNat + b2n s.linkDegraded <<< 2 + capped s.link.retrains 16 <<< 16)
  | 0x18 => some (pair16 s.link.replays s.link.flitErrors)
  | _ => none

/-- The mailbox block. -/
def mailboxBlockReg (s : State) (o : Nat) : Option Nat :=
  if o < 0x400 then mailboxReg (s.box (o / 0x100)) (o % 0x100)
  else if 0x1000 ≤ o && o < 0x1100 then ringReg s (o - 0x1000)
  else if 0x2000 ≤ o && o < 0x2020 && o % 4 == 0 then some (stickyReg s ((o - 0x2000) / 4))
  else if 0x2020 ≤ o && o < 0x2040 then firstFaultReg s (o - 0x2000)
  else if 0x3000 ≤ o && o < 0x5000 then alarmReg s ((o - 0x3000) / 0x20) (o % 0x20)
  else if 0x5000 ≤ o && o < 0x5100 then firmwareReg s (o - 0x5000)
  else none

/-! ## Line Timer block (file 02) -/

/-- LT_STATUS. -/
def ltStatusReg (s : State) : Nat :=
  let role := match s.role with | .single => 0 | .master => 1 | .follower => 2
  lineCode s.line.state + b2n s.line.generator <<< 2 + b2n s.line.source1 <<< 3 + role <<< 4 + b2n s.line.aligned <<< 6 +
    b2n s.reversing <<< 7 + b2n s.line.overspeed <<< 8 + s.line.lossReason.toNat <<< 16

/-- Entries of a delay list. -/
def State.listFill (s : State) (n : Nat) : Nat := (s.delayList n).length

/-- The Line Timer and Global Counter block. -/
def lineReg (s : State) (o : Nat) : Option Nat :=
  match o with
  | 0x00 => some (lo32 s.now)
  | 0x04 => some (hi32 s.now)
  | 0x10 => some (lo32 s.line.m.toNat)
  | 0x14 => some (hi32 s.line.m.toNat)
  | 0x18 => some (lo32 s.line.v.toNat)
  | 0x1C => some (hi32 s.line.v.toNat)
  | 0x20 => some (ltStatusReg s)
  | 0x24 => some (s.listFill 0 + s.listFill 1 <<< 16)
  | 0x28 => some (s.listFill 2 + s.listFill 3 <<< 16)
  | 0x2C => some (capped s.line.illegal 16 + capped s.line.zCorrections 8 <<< 16 + capped s.line.captureDrops 8 <<< 24)
  | 0x30 => some (pair16 s.line.lateFirings s.line.lateMessages)
  | _ => none

/-! ## Shuttle block (file 04) -/

/-- SHU_STATUS. -/
def shuStatusReg (s : State) : Nat :=
  let (active, slot) := match s.activeJob with | some (i, _) => (true, i) | none => (false, 0)
  b2n active + slot <<< 1 + b2n (0 < s.countItems fun it => it.pool == .shareReady || it.pool == .shareMatch) <<< 3 +
    b2n (0 < s.countItems (·.phase == .released)) <<< 4 + b2n (0 < s.countItems (·.phase == .kept)) <<< 5 +
    s.shu.lastRefusal.toNat <<< 16

/-- READY items at a priority. -/
def State.readyAt (s : State) (p : Nat) : Nat := s.countItems fun it => it.phase == .ready && it.priority == p

/-- The Shuttle block. -/
def shuttleReg (s : State) (o : Nat) : Option Nat :=
  let h := s.shu
  match o with
  | 0x00 => some (shuStatusReg s)
  | 0x04 => some (s.generalReady + (s.countItems (·.pool == .shareReady)) <<< 16)
  | 0x08 => some (s.generalMatch + (s.countItems (·.pool == .shareMatch)) <<< 16)
  | 0x0C => some (h.peakReady + h.peakMatch <<< 16)
  | 0x10 => some (s.readyAt 0 + s.readyAt 1 <<< 16)
  | 0x14 => some (s.readyAt 2 + s.readyAt 3 <<< 16)
  | 0x18 => some (s.readyAt 4 + s.readyAt 5 <<< 16)
  | 0x1C => some (s.readyAt 6 + s.readyAt 7 <<< 16)
  | 0x20 => some (pair16 h.refusedReady h.refusedMatch)
  | 0x24 => some (pair16 h.refusedFlow h.refusedHost)
  | 0x28 => some (capped h.timeouts 32)
  | 0x2C => some (pair16 h.deferred h.keptCount)
  | 0x30 => some (lo32 h.dispatched)
  | 0x34 => some (hi32 h.dispatched)
  | _ => none

/-! ## Tracer block (files 05 to 07) -/

/-- A PATTERN_INSTALL is accepted and not complete: its slot. -/
def State.installing (s : State) : Option Nat :=
  (s.mbx.find? fun b => b.busy && b.opcode == 0x0301).map fun b => (nth b.args 0 0).toNat % 2

/-- TRC_PATTERN_STATUS. -/
def patternStatusReg (s : State) : Nat :=
  let (active, slot, parts) := match s.pat.active with | some p => (1, p.slot, p.partitions) | none => (0, 0, 0)
  active + slot <<< 1 + b2n s.installing.isSome <<< 2 + s.installing.getD 0 <<< 3 + parts <<< 4 + s.pat.lastResult.toNat <<< 16

/-- The Pattern registers.  No install is seen in progress: its steps are one command (assumption log 20). -/
def patternReg (s : State) (o : Nat) : Option Nat :=
  let f (g : Pattern → Nat) : Option Nat := some (match s.pat.active with | some p => g p | none => 0)
  match o with
  | 0x00 => some (patternStatusReg s)
  | 0x04 => f fun p => lo32 p.sig.toNat
  | 0x08 => f fun p => hi32 p.sig.toNat
  | 0x0C => f (·.nodes)
  | 0x10 => f (·.edges)
  | 0x14 => f (·.fwdTotal)
  | 0x18 => some (pair16 s.pat.installsOk s.pat.installsFailed)
  | 0x1C => some 0
  | _ => none

/-- TRC_OCC_STATUS. -/
def occStatusReg (s : State) : Nat :=
  let (forced, rebuild, stale) := match s.occ.committed with | some e => (e.forced.toNat, e.rebuild, e.stale) | none => (0, false, false)
  forced + b2n rebuild <<< 16 + b2n s.occ.openRebuild <<< 17 + s.occ.obsTimeout.toNat <<< 18 + s.occ.peerTimeout.toNat <<< 22 +
    b2n stale <<< 29

/-- The occupancy registers. -/
def occupancyReg (s : State) (o : Nat) : Option Nat :=
  let f (g : Epoch → Nat) : Option Nat := some (match s.occ.committed with | some e => g e | none => 0)
  match o with
  | 0x40 => some (occStatusReg s)
  | 0x44 => f (·.number.toNat)
  | 0x48 => f fun e => lo32 e.t0
  | 0x4C => f fun e => hi32 e.t0
  | 0x50 => some s.occ.openFill
  | 0x54 => some (capped s.occ.drops 32)
  | 0x58 => some (pair16 s.occ.lateRecords s.occ.lateMasks)
  | 0x5C => some (capped s.occ.outside 32)
  | _ => none

/-- TRC_STATUS.  An apply, a rotation count and a sweep are one command each and are never seen in progress (log 20). -/
def trcStatusReg (s : State) : Nat :=
  b2n s.trc.gate.isSome <<< 1 + b2n s.trc.fullCount.isSome <<< 2 + b2n s.trc.fault <<< 9 + b2n s.trc.overdue <<< 10

/-- Age of the oldest queued recount in µs. -/
def State.oldestRecount (s : State) : Nat :=
  match s.trc.recounts with
  | [] => 0
  | r :: t => (s.now - (t.foldl (fun a x => min a x.since) r.since)) / 1000

/-- The Tracer registers. -/
def tracerReg (s : State) (o : Nat) : Option Nat :=
  let t := s.trc
  match o with
  | 0x80 => some (trcStatusReg s)
  | 0x84 => some t.appliedEpoch.toNat
  | 0x88 => some (t.valid.toNat + (maskOf 16 t.rotations.contains) <<< 16)
  | 0x8C => some (capped t.lastDuration 32)
  | 0x90 => some (lo32 t.adds)
  | 0x94 => some (hi32 t.adds)
  | 0x98 => some (capped t.saturations 32)
  | 0x9C => some (pair16 t.underflows t.rewrites)
  | 0xA0 => some (t.recounts.length + b2n t.overflow.isSome <<< 16)
  | 0xA4 => some (capped t.recountsDone 32)
  | 0xA8 => some (capped s.oldestRecount 32)
  | 0xAC => some (b2n t.fullCount.isSome <<< 31)
  | _ => none

/-- The Tracer block. -/
def tracerBlockReg (s : State) (o : Nat) : Option Nat :=
  if o < 0x40 then patternReg s o else if o < 0x80 then occupancyReg s o else tracerReg s o

/-! ## Engine blocks (files 08 to 13) -/

/-- Darning slots that an enabled channel of the active job claims. -/
def privilegedSlots (s : State) : Nat :=
  match s.activeJob with
  | some (_, j) => maskOf 4 fun n => j.channelBlocks.any fun b => b.field 4 == 1 && b.field 5 == n
  | none => 0

/-- Channels of the armed job whose active trajectory is of a kind. -/
def kindMask (s : State) (k : Kind) : Nat :=
  maskOf 16 fun c => (s.chan c).enabled && kindAt (s.chan c).history s.now == k

/-- The PSE and Darning block. -/
def searchReg (s : State) (o : Nat) : Option Nat :=
  let p := s.pse
  match o with
  | 0x00 => some (maskOf 8 (fun n => s.runs (.pse (Fin.ofNat 8 n))) + (maskOf 4 fun n => s.runs (.darn (Fin.ofNat 4 n))) <<< 8 +
      privilegedSlots s <<< 12)
  | 0x04 => some (kindMask s .stop + kindMask s .rest <<< 16)
  | 0x08 => some (capped p.searches 32)
  | 0x0C => some (lo32 p.expansions)
  | 0x10 => some (hi32 p.expansions)
  | 0x14 => some (pair16 p.noPath p.prefixBlocked)
  | 0x18 => some (pair16 p.budget p.labelsFull)
  | 0x1C => some (pair16 p.darned p.gaveUp)
  | 0x20 => some (pair16 p.dropped p.holds)
  | _ => none

/-- The Solver and Ease block. -/
def solverReg (s : State) (o : Nat) : Option Nat :=
  let e := s.se
  let cause := fun i => nth e.easeCause i 0
  match o with
  | 0x00 => some (maskOf 8 (fun n => s.runs (.lane (Fin.ofNat 8 n))) +
      (maskOf 8 fun n => s.claims.any (·.resource == 0x300 + n)) <<< 8 + e.resumable.toNat <<< 16)
  | 0x04 => some (capped e.solves 32)
  | 0x08 => some (pair16 e.deadlineBest e.iterationCap)
  | 0x0C => some (pair16 e.tinyPivots e.zeroPivots)
  | 0x10 => some (pair16 e.overflows e.noValid)
  | 0x14 => some (pair16 e.warmOk e.warmRejected)
  | 0x18 => some (pair16 e.infeasible e.busyRefused)
  | 0x1C => some (lo32 e.iterations)
  | 0x20 => some (hi32 e.iterations)
  | 0x24 => some (pair16 e.loadsOk e.loadsRefused)
  | 0x40 => some (capped e.easeItems 32)
  | 0x44 => some (pair16 e.easeValid e.easeInvalid)
  | 0x48 => some (quad8 (cause 3) (cause 4) (cause 5) (cause 6))
  | 0x4C => some (quad8 (cause 1) (cause 2) (cause 7) (cause 8))
  | 0x50 => some (pair16 e.stopTries e.deadlineValid)
  | _ => none

/-- NET_IDs loaded in the job of SHU_STATUS.JOB_SLOT. -/
def netLoaded (s : State) : Nat :=
  let slot := match s.activeJob with | some (i, _) => i | none => 0
  match s.jobIn slot with
  | some j => maskOf 64 fun n => j.networks.any (·.netId == n)
  | none => 0

/-- The Tensor Engine block. -/
def tensorReg (s : State) (o : Nat) : Option Nat :=
  let t := s.te
  match o with
  | 0x00 => some ((maskOf 16 fun n => s.shu.panels.any fun x => x.1 == n && s.shu.items.any fun it => it.id == x.2 && it.phase == .running) +
      t.excluded.toNat <<< 16)
  | 0x04 => some (s.panelsPresent + (match s.activeJob with
      | some (_, j) => s.matmulTiling j <<< 5 + b2n j.reproducible <<< 10
      | none => 0))
  | 0x08 => some (capped t.items 32)
  | 0x0C => some (lo32 t.macs)
  | 0x10 => some (hi32 t.macs)
  | 0x14 => some (lo32 t.busy)
  | 0x18 => some (hi32 t.busy)
  | 0x1C => some (pair16 t.residueFails t.duplicateFails)
  | 0x20 => some t.lastFail.toNat
  | 0x24 => some (pair16 t.accSat t.nonfinite)
  | 0x28 => some (lo32 (netLoaded s))
  | 0x2C => some (hi32 (netLoaded s))
  | _ => none

/-- The Selector block. -/
def selectReg (s : State) (o : Nat) : Option Nat :=
  let t := s.tks
  match o with
  | 0x00 => some (maskOf 2 (fun n => s.runs (.tks (Fin.ofNat 2 n))) + b2n t.disagreeSeen <<< 2 + b2n t.sumSatSeen <<< 3)
  | 0x04 => some (capped t.items 32)
  | 0x08 => some (pair16 t.ties t.fewer)
  | 0x0C => some (pair16 t.duplicates t.disagrees)
  | 0x10 => some (capped t.nans 32)
  | 0x14 => some (lo32 t.entries)
  | 0x18 => some (hi32 t.entries)
  | 0x1C => some t.lastDisagree.toNat
  | _ => none

/-- The state of a frame buffer in FI_BUFFERS. -/
def bufCode : BufState → Nat
  | .free => 0 | .filling => 1 | .full => 2 | .held => 3

/-- The byte of FI_BUFFERS for a port. -/
def portBuffers (p : FiPort) : Nat :=
  bufCode (p.buf 0).state + bufCode (p.buf 1).state <<< 2 + bufCode (p.buf 2).state <<< 4 + bufCode (p.buf 3).state <<< 6

/-- FI_SHEET_STATUS. -/
def sheetStatusReg (s : State) : Nat :=
  let h := s.sheet
  b2n h.frozen + b2n h.pass <<< 1 + h.lastCause <<< 2 + h.records.length <<< 5 + (h.releases % 65536) <<< 16

/-- The Frame Intake block. -/
def frameReg (s : State) (o : Nat) : Option Nat :=
  let p := fun n => s.fiPort n
  match o with
  | 0x00 => some (maskOf 4 (fun n => (s.camera n).isSome) + (maskOf 4 fun n => (p n).now.isSome) <<< 4 +
      (maskOf 4 fun n => (p n).take.isSome) <<< 8 + s.fi.lastReject.toNat <<< 16)
  | 0x04 => some (quad8 (portBuffers (p 0)) (portBuffers (p 1)) (portBuffers (p 2)) (portBuffers (p 3)))
  | 0x30 => some (quad8 (p 0).frozen (p 0).repeated (p 1).frozen (p 1).repeated)
  | 0x34 => some (quad8 (p 2).frozen (p 2).repeated (p 3).frozen (p 3).repeated)
  | 0x38 => some (quad8 (p 0).skips (p 1).skips (p 2).skips (p 3).skips)
  | 0x40 => some (sheetStatusReg s)
  | 0x44 => some s.sheet.lastSheet.toNat
  | 0x48 => some (pair16 s.sheet.heldOver s.sheet.lateRecords)
  | 0x4C => some (pair16 s.sheet.sheetsSince s.sheet.deferrals)
  | 0x50 => some (pair16 s.sheet.passes s.sheet.fails)
  | _ =>
    if 0x10 ≤ o && o < 0x30 && o % 8 == 0 then some (pair16 (p ((o - 0x10) / 8)).accepted (p ((o - 0x10) / 8)).dropped)
    else if 0x10 ≤ o && o < 0x30 && o % 8 == 4 then
      let q := p ((o - 0x10) / 8)
      some (quad8 q.crcErrors q.sizeErrors q.maxExpiries q.strangers)
    else none

/-! ## Seam and Safety Manager block (file 14) -/

/-- Channels released in the current cycle. -/
def releasedNow (s : State) : Nat :=
  match s.shu.cycles with
  | c :: _ => maskOf 16 fun n => (s.chan n).released.contains c.tag
  | [] => 0

/-- Instances of a class that no dispatch reaches. -/
def excludedMask (s : State) (c : TestClass) (n : Nat) : Nat := maskOf n fun i => i < s.instances c && !s.inService c i

/-- SM_STATE. -/
def smStateReg (s : State) : Nat :=
  s.smState + b2n (s.smState == 0) <<< 2 + b2n s.sm.safeReq <<< 3 + b2n s.sm.readbackFailed <<< 4 + s.sm.lastCause.toNat <<< 16

/-- SM_COVERAGE_AGE. -/
def coverageAgeReg (s : State) : Nat :=
  match s.coverageAge with
  | some a => capped (a / 1000) 32
  | none => 0xFFFFFFFF

/-- The Seam and Safety Manager block. -/
def safetyReg (s : State) (o : Nat) : Option Nat :=
  let m := s.sm
  match o with
  | 0x00 => some (b2n (s.runs .seam) + releasedNow s <<< 16)
  | 0x04 => some (capped m.stitches 32)
  | 0x08 => some (pair16 m.dropsEarly m.dropsLate)
  | 0x0C => some (pair16 m.walks0901 m.walks0902)
  | 0x10 => some m.lastDisagree.toNat
  | 0x14 => some (pair16 m.verdictBlocked m.verdictBudget)
  | 0x100 => some (smStateReg s)
  | 0x104 => some m.latched.toNat
  | 0x108 => some s.standing
  | 0x10C => some (maskOf 16 fun n => (s.chan n).lastHold)
  | 0x110 => some (capped m.holdCount 32)
  | 0x114 => some (coverageAgeReg s)
  | 0x118 => some (m.running.length + capped m.deferred 16 <<< 16)
  | 0x11C => some (pair16 m.lastFail.toNat m.rounds)
  | 0x120 => some (lo32 (excludedMask s .workCore 64))
  | 0x124 => some (hi32 (excludedMask s .workCore 64))
  | 0x128 => some (excludedMask s .panel 16 + excludedMask s .lane 8 <<< 16 + excludedMask s .pse 8 <<< 24)
  | 0x12C => some (excludedMask s .tks 2 + excludedMask s .darn 4 <<< 2 + excludedMask s .tracerGroup 8 <<< 6 +
      excludedMask s .seam 1 <<< 14)
  | _ => none

/-! ## Memory and Move Engine blocks (file 15) -/

/-- MEM_STATUS. -/
def memStatusReg (s : State) : Nat :=
  let c := s.memCtl
  b2n c.maintenance + c.merge.length <<< 1 + b2n c.flip.isSome <<< 8 + b2n c.flipFired <<< 9 + b2n c.clearDone <<< 10

/-- The MEM_VIOL_FIRST registers. -/
def firstViolationReg (s : State) (o : Nat) : Option Nat :=
  let f (g : FirstViolation → Nat) : Option Nat := some (match s.memCtl.firstViolation with | some v => g v | none => 0)
  match o with
  | 0x300 => f fun v => lo32 v.addr
  | 0x304 => f fun v => hi32 v.addr
  | 0x308 => f fun v => v.requester + b2n v.register <<< 8 + b2n v.write <<< 9 + b2n v.narrow <<< 10 + 2 ^ 31
  | _ => none

/-- The memory and ECC block. -/
def memoryReg (s : State) (o : Nat) : Option Nat :=
  let c := s.memCtl
  match o with
  | 0x00 => some (memStatusReg s)
  | 0x04 => some (c.regions + s.devField 6 158 0 <<< 7 + s.devField 6 159 0 <<< 8)
  | 0x08 => some (lo32 c.corrected)
  | 0x0C => some (hi32 c.corrected)
  | 0x10 => some (pair16 c.uncorr c.poisonReads)
  | 0x14 => some (lo32 c.lastUncorr)
  | 0x18 => some (hi32 c.lastUncorr)
  | 0x1C => some c.lastUncorrInfo.toNat
  | 0x20 => some (c.softRepairs.length + (c.softRepairs.filter (·.commit)).length <<< 6 + s.lcc.fuses.fieldRepairs.length <<< 12)
  | 0x24 => some (pair16 c.hard c.repairsApplied)
  | 0x28 => some (pair16 c.mergeWritten c.mergeDropped)
  | _ =>
    if 0x100 ≤ o && o < 0x284 && o % 4 == 0 then
      let (v, n) := nth c.violations ((o - 0x100) / 4) (0, 0)
      some (pair16 v n)
    else firstViolationReg s o

/-- The Move Engine block. -/
def moveReg (s : State) (o : Nat) : Option Nat :=
  if o == 0 then some ((maskOf 16 fun n => s.runs (.moveEngine (Fin.ofNat 16 n))) + s.me.halted.toNat <<< 16)
  else if 0x10 ≤ o && o < 0x90 && o % 8 == 0 then some (lo32 (nth s.me.haltAddr ((o - 0x10) / 8) 0))
  else if 0x10 ≤ o && o < 0x90 && o % 8 == 4 then some (hi32 (nth s.me.haltAddr ((o - 0x10) / 8) 0))
  else none

/-! ## Field Port and Peer Link blocks (file 17) -/

/-- FP_n_FB_m. -/
def feedbackReg (x : FpNode) : Nat :=
  ((x.lastSeq.map (·.toNat)).getD 0) + x.status % 4 <<< 16 + b2n x.stale <<< 18 + b2n x.deviation <<< 19

/-- The registers of one Field Port. -/
def portReg (p : FieldPort) (o : Nat) : Option Nat :=
  match o with
  | 0x00 => some (pair16 p.sent p.fragments)
  | 0x04 => some (pair16 p.accepted p.foreign)
  | 0x08 => some (quad8 p.late p.superseded p.excess p.fcsErrors)
  | 0x0C => some (quad8 p.unknownSource p.payloadCrc p.range p.sequence)
  | 0x10 => some (pair16 p.collisions p.plcaLosses)
  | _ => none

/-- The Field Port block. -/
def fieldPortReg (s : State) (o : Nat) : Option Nat :=
  if o == 0 then
    some (maskOf 4 (fun n => (s.fieldBlock n).isSome) + (maskOf 4 fun n => (s.port n).plcaOk) <<< 4 +
      (maskOf 4 fun n => match s.fieldBlock n with | some b => b.field 0 == 0 | none => false) <<< 8)
  else if 0x100 ≤ o && o < 0x180 then portReg (s.port ((o - 0x100) / 0x20)) (o % 0x20)
  else if 0x1000 ≤ o && o < 0x1080 && o % 4 == 0 then
    some (feedbackReg (nth (s.port ((o - 0x1000) / 0x20)).nodes (o % 0x20 / 4) {}))
  else none

/-- The registers of one Peer Link. -/
def peerReg (p : PeerLink) (o : Nat) : Option Nat :=
  match o with
  | 0x00 => some (capped p.txFlits 32)
  | 0x04 => some (capped p.rxFlits 32)
  | 0x08 => some (capped p.crcErrors 16 + capped p.malformed 8 <<< 16 + capped p.discarded 8 <<< 24)
  | 0x0C => some (capped p.replays 16 + capped p.retrains 8 <<< 16 + p.farPos <<< 24)
  | _ => none

/-- The Peer Link block. -/
def peerBlockReg (s : State) (o : Nat) : Option Nat :=
  if o == 0 then some ((maskOf 7 fun n => (s.peer n).up) + (maskOf 7 s.peerEnabled) <<< 7 + s.boardPos <<< 14)
  else if 0x100 ≤ o && o < 0x170 then peerReg (s.peer ((o - 0x100) / 0x10)) (o % 0x10)
  else none

/-! ## Life-cycle block (R494) -/

/-- A LIFECYCLE_SET is accepted and not complete (LCC_STATE.TRANSITION_PENDING). -/
def State.transitionPending (s : State) : Bool :=
  s.lcc.transition.isSome || (match s.lcc.burn with | some ⟨_, .lifeCycle _, _⟩ => true | _ => false)

/-- LCC_STATE. -/
def lifeCycleReg (s : State) : Nat :=
  let f := s.lcc.fuses
  f.lifeCycle.code + b2n s.transitionPending <<< 3 + f.svnMin <<< 8 + b2n f.fwKey.isSome <<< 16 +
    (maskOf 4 fun n => (nth f.patternKeys n none).isSome) <<< 17 + b2n s.lcc.identity <<< 21

/-- The life-cycle, fuse, tamper and power block. -/
def lccReg (s : State) (o : Nat) : Option Nat :=
  match o with
  | 0x00 => some (lifeCycleReg s)
  | 0x04 => some (s.lcc.tamper.toNat + b2n s.lcc.wipeRunning <<< 4 + capped s.lcc.tamperEvents 16 <<< 16)
  | 0x08 => some (b2n (s.power == .idle) + capped s.lcc.idleEntries 16 <<< 16)
  | 0x0C => some s.lcc.temp.toNat
  | 0x10 => some s.lcc.powerEst.toNat
  | _ => none

/-! ## The whole map (R490) -/

/-- The present value of the register at an aligned BAR0 offset; none at a reserved address. -/
def State.register (s : State) (offset : Nat) : Option Nat :=
  let o := offset % 0x100000
  match offset / 0x100000 with
  | 0x0 => globalReg s o
  | 0x1 => mailboxBlockReg s o
  | 0x2 => lineReg s o
  | 0x3 => shuttleReg s o
  | 0x4 => tracerBlockReg s o
  | 0x5 => searchReg s o
  | 0x6 => solverReg s o
  | 0x7 => tensorReg s o
  | 0x8 => selectReg s o
  | 0x9 => frameReg s o
  | 0xA => safetyReg s o
  | 0xB => memoryReg s o
  | 0xC => fieldPortReg s o
  | 0xD => peerBlockReg s o
  | 0xE => moveReg s o
  | 0xF => lccReg s o
  | _ => none

/-- The _LO registers of R8 outside the alarm classes and the ME_HALT pairs. -/
def loOffsets : List Nat :=
  [0x000008, 0x102028, 0x102030, 0x105008, 0x200000, 0x200010, 0x200018, 0x300030, 0x400004, 0x400048, 0x400090, 0x50000C, 0x60001C,
   0x70000C, 0x700014, 0x700028, 0x800014, 0xA00120, 0xB00008, 0xB00014, 0xB00300]

/-- Is there a _LO register at this offset? -/
def isLo (o : Nat) : Bool :=
  loOffsets.contains o || (0x103000 ≤ o && o < 0x105000 && (o % 0x20 == 0x08 || o % 0x20 == 0x10)) ||
    (0xE00010 ≤ o && o < 0xE00090 && o % 8 == 0)

/-- Is there a _HI register at this offset? -/
def isHi (o : Nat) : Bool := 4 ≤ o && isLo (o - 4)

/-- The latched value of a _HI register (R8). -/
def State.latchedHi (s : State) (o : Nat) : Reg := ((s.hiLatches.find? (·.1 == o)).map (·.2)).getD 0

/-- Latch a _HI register, in offset order. -/
def latchHi (o : Nat) (v : Reg) (s : State) : State :=
  { s with hiLatches := insertBy (fun x y => x.1 < y.1) (o, v) (s.hiLatches.filter (·.1 != o)) }

/-- The host is answered with these bytes. -/
def answer (data : List Byte) (bad : Bool) (s : State) : State := { s with reply := { data := data, poisoned := bad } }

/-- Accesses of the host reach BAR0 and BAR2: the device is not Off, the Die Link is up and the function is in D0 (R416, R417), and
the function decodes memory accesses (R415). -/
def State.hostReaches (s : State) : Bool := s.awake && s.linkUp? && !s.link.d3hot && s.link.config.memoryEnable

/-- MEM_VIOL_53 to MEM_VIOL_68, of the Work Cores that the FT9-48I lacks (R407): reserved addresses there (R3). -/
def State.absentRegister (s : State) (offset : Nat) : Bool := s.grade == .ft9_48I && 0xB001D4 ≤ offset && offset < 0xB00214

/-- The register that a host access to BAR0 reaches: none for a wrong width or alignment, a reserved address, and a register of an absent instance (R3,
R6, R7).  R495 exempts a read of the violation log; a reserved address is no part of the log (DEDUCED, log 81). -/
def State.hostRegister (s : State) (offset width : Nat) : Option Nat :=
  if width == 4 && offset % 4 == 0 && !s.absentRegister offset then s.register offset else none

/-- A host read of BAR0 (R6 to R8, R407): an access that reaches no register reads as zero and is a violation. -/
def readBar0 (offset width : Nat) (s : State) : State :=
  match s.hostRegister offset width with
  | some v =>
    if isHi offset then answer (toBytes (s.latchedHi offset).toNat 4) false s
    else
      let s : State := match if isLo offset then s.register (offset + 4) else none with
        | some h => latchHi (offset + 4) (BitVec.ofNat 32 h) s
        | none => s
      answer (toBytes v 4) false s
  | none => answer (toBytes 0 width) false (violate 0 offset true false false s)

end Sys2Proof.Machine
end

