-- ==== Sys2Proof/Machine/HostPort.lean ====
section
/-!
DEFINITION. The Die Link: BAR2 (R404, R418), ring indices (R424, R425), the alarm table (R438), the submission ring (R426), MSI-X
messages (R430), Function Level Reset and D3hot (R417), and the link itself (R416).
-/

namespace Sys2Proof.Machine

open Sys2Proof

/-! ## What the host may read and write (R418) -/

/-- A key lies in a span. -/
def Span.has (sp : Span) (k : Nat) : Bool := sp.key ≤ k && k < sp.key + sp.len

/-- The image buffers of a job's networks, as they lay at the load of each (R298). -/
def Job.imageSpans (j : Job) : List Span := j.networks.map fun n => ⟨n.base, n.size⟩

/-- The golden-frame buffer and GOLDEN_EXPECT of a job whose sheet loop has golden passes (R343). -/
def State.goldenSpans (s : State) (j : Job) : List Span :=
  match j.sheetBlock with
  | none => []
  | some b =>
    if b.field 16 == 0 then []
    else
      let frame := match s.camera (b.field 0) with
        | some c => (j.bufferSpan (c.field 13)).toList.map fun sp => (⟨sp.key + 3 * frameWords c, frameWords c⟩ : Span)
        | none => []
      frame ++ (j.bufferSpan (b.field 17)).toList

/-- Words of jobs that are read-only to the host: image buffers, and the golden buffers of the job that is not DEFINED. -/
def State.jobReadOnly (s : State) (k : Nat) : Bool :=
  (s.jobs.filterMap id).any fun j =>
    j.imageSpans.any (·.has k) || (j.state != .defined && (s.goldenSpans j).any (·.has k))

/-- First key of the payload area of mailbox n, and its words (R419). -/
def payloadBase (n : Nat) : Nat := (0x3C0000 + 0x4000 * n) / 32
def payloadWords : Nat := 512

/-- The mailbox whose payload area holds a key. -/
def payloadOf (k : Nat) : Option Nat :=
  if payloadBase 0 ≤ k && k < payloadBase 4 then some ((k - payloadBase 0) / payloadWords) else none

/-- May the host read the word (R418)? -/
def State.hostMayRead (s : State) (k : Nat) : Bool :=
  match s.ownerOf k with
  | some 8 => sqBase ≤ k && k < payloadBase 4
  | some _ => true
  | none => false

/-- May the host write the word (R418, R420)? -/
def State.hostMayWrite (s : State) (k : Nat) : Bool :=
  match s.ownerOf k with
  | some 8 =>
    (sqBase ≤ k && k < sqBase + sqSize) || (match payloadOf k with | some n => !(s.box n).busy | none => false)
  | some 5 => false
  | some 6 | some 7 => !s.patternProtected k
  | some _ => !s.jobReadOnly k
  | none => false

/-! ## BAR2 (R404, R418) -/

/-- The requester of a host access. -/
def hostReq : Requester := { num := 0 }

/-- Read the words of a host read: a word that the host may not read is a violation and reads as zero. -/
def hostWords (addr : Nat) : List Nat → State → State × List Got
  | [], s => (s, [])
  | k :: t, s =>
    let (s, g) := if s.hostMayRead k then readWord hostReq k s
      else (violate 0 (max addr (32 * k)) false false false s, (⟨0, false⟩ : Got))
    let (s, gs) := hostWords addr t s
    (s, g :: gs)

/-- The keys of the words that `len` bytes from an address touch. -/
def touched (addr len : Nat) : List Nat := if len == 0 then [] else (List.range ((addr + len - 1) / 32 - addr / 32 + 1)).map (addr / 32 + ·)

/-- A host read through BAR2: an uncorrectable or poisoned word gives zero data with the EP indication. -/
def readBar2 (addr len : Nat) (s : State) : State :=
  let (s, gs) := hostWords addr (touched addr len) s
  if anyBad gs then answer (List.replicate len 0) true s
  else answer (((wordsBytes (gotData gs)).drop (addr % 32)).take len) false s

/-- The 32 byte lanes that a write places on word k. -/
def lanesOf (addr : Nat) (bytes : List (Option Byte)) (k : Nat) : List (Option Byte) :=
  (List.range 32).map fun i => if 32 * k + i < addr then none else nth bytes (32 * k + i - addr) none

/-- The write of one word of a BAR2 write: whole, narrow, or a violation (R404, R405, R407). -/
def writeLanes (addr k : Nat) (lanes : List (Option Byte)) (s : State) : State :=
  if lanes.all (·.isNone) then s
  else if !s.hostMayWrite k then violate 0 (max addr (32 * k)) false true false s
  else if lanes.all (·.isSome) then writeWord k (mergeBytes 0 lanes) s
  else if s.memCtl.maintenance then mergeWrite k lanes s
  else violate 0 (max addr (32 * k)) false true true s

/-- A host write through BAR2, word by word. -/
def writeBar2 (addr : Nat) (bytes : List (Option Byte)) (s : State) : State :=
  (touched addr bytes.length).foldl (fun s k => writeLanes addr k (lanesOf addr bytes k) s) s

/-! ## Ring indices (R424, R425) -/

/-- An index write that is not accepted. -/
def indexError (s : State) : State := { s with rings.indexErrors := satAdd 65535 s.rings.indexErrors 1 }

/-- A write moves a producer index forward and keeps the fill within the ring's size. -/
def Ring.tailMoves (r : Ring) (v : Reg) (size : Nat) : Bool := v != r.tail && r.fill + (v - r.tail).toNat ≤ size

/-- A write moves a consumer index forward and not past the producer's. -/
def Ring.headMoves (r : Ring) (v : Reg) : Bool := v != r.head && (v - r.head).toNat ≤ r.fill

/-- A host write of MBX_SQ_TAIL. -/
def writeSqTail (v : Reg) (s : State) : State :=
  if s.rings.sq.tailMoves v sqSize then { s with rings.sq.tail := v } else indexError s

/-- A host write of the HEAD of the CQ, EQ or LQ; after drops the EQ and the LQ take one marker. -/
def writeHead (ring : HostRing) (v : Reg) (s : State) : State :=
  match ring with
  | .cq => if s.rings.cq.headMoves v then { s with rings.cq.head := v } else indexError s
  | .eq => if s.rings.eq.headMoves v then eqMarker { s with rings.eq.head := v } else indexError s
  | .lq => if s.rings.lq.headMoves v then lqMarker { s with rings.lq.head := v } else indexError s

/-! ## The alarm table (R438) -/

/-- A write to MBX_ALARM_STICKY_m: each 1 clears its class whole. -/
def clearSticky (m : Nat) (v : Reg) (s : State) : State :=
  { s with alarms := s.alarms.filter fun r => !(r.cls / 32 == m && v.getLsbD (r.cls % 32)) }

/-- A write to MBX_FF_INFO: 1 to VALID unfreezes the First Fault. -/
def unfreeze (v : Reg) (s : State) : State := if v.getLsbD 31 then { s with firstFault := none } else s

/-! ## The submission ring (R426) -/

/-- A submission entry that the first three checks refuse. -/
def refuseEntry (reason : Nat) (w : Word) (s : State) : State :=
  writeCompletion { status := .refused, reason := reason, job := BitVec.ofNat 16 (Word.get w 32 16), service := Word.get w 16 8,
                    a := Word.get w 8 8 }
    { s with rings.entryErrors := satAdd 65535 s.rings.entryErrors 1 }

/-- The checks of a submission entry, and its triggering. -/
def checkEntry (w : Word) (s : State) : State :=
  if Word.get w 0 8 != 1 || Word.get w 24 8 != 0 || Word.get w 48 208 != 0 then refuseEntry 0x0105 w s
  else
    match s.runningJob with
    | none => refuseEntry 0x0112 w s
    | some (_, j) =>
      if j.id.toNat != Word.get w 32 16 then refuseEntry 0x0112 w s
      else if (j.list? (Word.get w 16 8) (Word.get w 8 8)).isNone then refuseEntry 0x0105 w s
      else startList true { service := Word.get w 16 8, list := Word.get w 8 8, tag := s.latestTag, sheet := none, golden := false } s

/-- The device takes the oldest submission entry. -/
def takeEntry (s : State) : State :=
  let q := s.rings.sq
  if q.fill == 0 then s
  else
    let (s, g) := readWord { num := 94 } (sqBase + q.head.toNat % sqSize) s
    let s := { s with rings.sq.head := q.head + 1 }
    if g.bad then
      writeCompletion { status := .poisoned, reason := 0x0A01 } { s with rings.entryErrors := satAdd 65535 s.rings.entryErrors 1 }
    else checkEntry g.data s

/-! ## MSI-X (R430) -/

/-- Holdoff of a vector in ns. -/
def State.holdoff (s : State) (v : Nat) : Nat :=
  if v < 3 then 1000 * min s.link.holdoff.toNat 1000 else if v == 3 then 100000 else 0

/-- A message of a vector may be sent now; a masked vector keeps its pending bit, and sends nothing. -/
def State.mayInterrupt (s : State) (v : Nat) : Bool :=
  let x := nth s.link.vectors v {}
  x.due && s.linkUp? && !s.link.d3hot && s.link.config.busMaster && s.link.config.msixEnable && !s.link.config.msixMask && !x.masked && (match x.lastSent with | some t => decide (t + s.holdoff v ≤ s.now) | none => true)

/-- Send the message of a vector that is due once its holdoff has passed. -/
def sendVector (v : Nat) (s : State) : State :=
  if s.mayInterrupt v then
    { s with link.vectors := upd s.link.vectors v fun x => { x with due := false, lastSent := some s.now } }
  else s

/-! ## The link and the function (R416, R417) -/

/-- A module fails, or the link goes down. -/
def linkFailure (what : LinkFailure) (s : State) : State :=
  if !s.linkUp? then s
  else
    let left : BitVec 2 := match what with
      | .module m => s.link.modules &&& ~~~(1#2 <<< m.val)
      | .down => 0
    if left == s.link.modules then s
    else raiseAlarm 0x0B20 (if left == 0 then 2 else 1) 0
      { s with link.modules := left, link.downAt := if left == 0 then s.now else s.link.downAt }

/-- An attempt to retrain is due: the link is down, and a multiple of 10 ms has passed since it went down. -/
def State.retrainDue (s : State) : Bool := !s.linkUp? && s.link.downAt < s.now && (s.now - s.link.downAt) % 10000000 == 0

/-- An attempt to retrain while the link is down: the modules that trained.  Vectors that became due meanwhile send one message. -/
def retrainLink (trained : BitVec 2) (s : State) : State :=
  if !s.retrainDue || trained == 0 then s
  else
    let s := { s with link.modules := trained, link.retrains := satAdd 65535 s.link.retrains 1 }
    let s := if s.linkDegraded then raiseAlarm 0x0B20 1 0 s else s
    (List.range 5).foldl (fun s v => sendVector v s) s

/-- The driver has set the function up: memory decoding, bus mastering, the BARs, and MSI-X with its table. -/
def setUp (s : State) : State :=
  { s with
    link.config := { s.link.config with
      memoryEnable := true, busMaster := true, bar0 := Config.bar0, bar2 := Config.bar2, msixEnable := true, msixMask := false }
    link.vectors := ((List.range 5).zip s.link.vectors).map fun (v, x) =>
      { x with masked := false, address := Config.msixAddress v, data := Config.msixData v } }

/-- The function's own state after a Function Level Reset: until the driver sets it up again it decodes no address and sends no message (R417). -/
def resetFunction (s : State) : State :=
  { s with link.d3hot := false, link.holdoff := 10, link.vectors := List.replicate 5 {}, link.config := {} }

end Sys2Proof.Machine
end

