-- ==== Sys2Proof/Machine/Select.lean ====
section
/-!
DEFINITION. The Top-k Selector (file 12): the parameter block and its checks (R306 to R308), ranks (R309), selection (R310 to R313), sums
(R314, R318), merging (R317), the result record (R315) and the kept list (R316).
-/

namespace Sys2Proof.Machine

open Sys2Proof

/-! ## The parameter block (R306, R307) -/

/-- The parameter block of TOPK and TOPK_MERGE. -/
structure TopkParam where
  form : Nat
  keyType : Nat
  smallest : Bool
  k : Nat
  count : Nat
  kIn : Nat
  base : Nat
  reserved : Bool
  deriving DecidableEq, Repr

/-- The block in a word. -/
def topkParam (w : Nat) : TopkParam :=
  { form := bits w 0 2, keyType := bits w 2 2, smallest := w.testBit 4, k := bits w 16 11, count := bits w 32 32, kIn := bits w 64 16,
    base := bits w 96 32,
    reserved := bits w 5 11 != 0 || bits w 27 5 != 0 || bits w 80 16 != 0 || bits w 128 128 != 0 }

/-- STRIDE of a merge input. -/
def TopkParam.stride (p : TopkParam) : Nat := if p.form == 2 then 1 + 10 * p.kIn else 2 + ceilDiv p.kIn 4

/-- Input records of an operation, and the capacity of each (R308). -/
def TopkParam.inputs (p : TopkParam) (merge : Bool) : Nat := if merge then p.count else 1
def TopkParam.capacity (p : TopkParam) (merge : Bool) : Nat := if merge then p.kIn else p.k

/-- ceil(log2 (max n 2)). -/
def ceilLog2 (n : Nat) : Nat := let m := max n 2; if 2 ^ m.log2 == m then m.log2 else m.log2 + 1

/-- The time of R321 in fabric clocks with every input record valid and no early split. -/
def topkClocks (p : TopkParam) (merge : Bool) : Nat :=
  let e := if p.form == 0 then p.count else p.inputs merge * p.capacity merge
  let n := p.inputs merge
  let c := min p.k e
  let load := match p.form with
    | 0 => ceilDiv e 32
    | 1 => ceilDiv e 16
    | _ => ceilDiv (n * (1 + 10 * p.capacity merge)) 4 + 80 * e
  let merging := if p.form == 0 then 0 else ceilDiv (e * ceilLog2 e) 32
  let out := if p.form == 2 then ceilDiv (3 + 10 * p.k + ceilDiv p.k 4) 4 else ceilDiv (2 + ceilDiv p.k 4) 4
  220 + load + merging + 4 * (ceilDiv e 64 + 400) + 32 + ceilDiv (c * ceilLog2 c) 8 + out

/-- Words that operands 1 to 3 need. -/
def topkWords (p : TopkParam) (merge : Bool) : Nat × Nat × Nat :=
  let n := if merge then p.count * p.stride else if p.form == 2 then 1 + 10 * p.k else ceilDiv p.count 8
  (n, 2 + ceilDiv p.k 4, if p.form == 2 then 1 + 10 * p.k else 0)

/-- The operand extents of an entry: buffer, first word and length of operands 1 to 3. -/
def overlapOk (e : Entry) (j : Job) : Bool :=
  let ext (i : Nat) : Option (Nat × Nat) :=
    (j.operandSpan e i).map fun sp => (sp.key, sp.len)
  match ext 1 with
  | none => true
  | some a =>
    (match ext 2 with | some b => disjoint a b | none => true) && (match ext 3 with | some b => disjoint a b | none => true)

/-- The checks of R307 at the item's start, in the order of R85: of a test, the lowest field first.  OPERAND3 (`l3`) is used with FORM 2 and with
no other (R305). -/
def topkCheck (p : TopkParam) (merge : Bool) (l1 l2 : Nat) (l3 : Option Nat) (apart : Bool) : Check Unit := do
  countOk 11 p.k
  countOk 32 p.count
  if merge then countOk 16 p.kIn else need (p.kIn != 65535) 0x0107
  need (!p.reserved && p.keyType != 3 && (if merge then p.form == 1 || p.form == 2 else p.form == 0 || p.form == 2) &&
    (p.form != 2 || (p.keyType == 0 && p.smallest)) && (merge || p.kIn == 0) && (p.form == 0 || p.base == 0) &&
    (merge || p.form != 2 || p.count == 1) && l3.isSome == (p.form == 2) && (p.form != 0 || p.base + p.count - 1 < 4294967295)) 0x0105
  let most := if p.form == 2 then 16 else 1024
  need (p.k ≤ most && (if merge then p.count ≤ 64 && p.kIn ≤ most && p.count * p.kIn ≤ 8192 else p.count ≤ 65536)) 0x0106
  let (a, b, c) := topkWords p merge
  need (a ≤ l1 && b ≤ l2 && c ≤ l3.getD 0) 0x0101
  need apart 0x0114
  need (topkClocks p merge ≤ 11000) 0x0110

/-! ## Entries (R308, R309) -/

/-- An entry: key, index, the words of its record with FORM 2, and the input that lists it. -/
structure TopkEntry where
  key : Nat
  index : Nat
  record : List Word
  input : Nat
  deriving DecidableEq, Repr

/-- The −0 rule of F32 keys. -/
def plainKey (keyType key : Nat) : Nat := if keyType == 2 && key == 0x80000000 then 0 else key

/-- An F32 NaN. -/
def isNan (keyType key : Nat) : Bool := keyType == 2 && bits key 23 8 == 255 && bits key 0 23 != 0

/-- The rank r of a key. -/
def rankOf (p : TopkParam) (key : Nat) : Nat :=
  let k := plainKey p.keyType key
  let t := match p.keyType with
    | 0 => k
    | 1 => k ^^^ 0x80000000
    | _ => if k < 0x80000000 then k ^^^ 0x80000000 else k ^^^ 0xFFFFFFFF
  if p.smallest then t ^^^ 0xFFFFFFFF else t

/-- Order of R310. -/
def chosenFirst (p : TopkParam) (a b : TopkEntry) : Bool :=
  let ra := rankOf p a.key
  let rb := rankOf p b.key
  rb < ra || (ra == rb && a.index < b.index)

/-- The entries of a row (FORM 0). -/
def denseEntries (p : TopkParam) (ws : List Word) : List TopkEntry :=
  (List.range p.count).map fun i => ⟨lane32 (nth ws (i / 8) 0) (i % 8), p.base + i, [], 0⟩

/-- The entries of a result record used as input n (FORM 1), checked. -/
def pairEntries (p : TopkParam) (n : Nat) (ws : List Word) : Check (List TopkEntry) := do
  let h := (nth ws 0 0).toNat
  let count := bits h 16 11
  need (bits h 0 11 == p.kIn && bits h 11 2 == p.keyType && h.testBit 13 == p.smallest) 0x0114
  need (count ≤ p.kIn) 0x0101
  let es := (List.range count).map fun i =>
    let e := Word.get (nth ws (2 + i / 4) 0) (64 * (i % 4)) 64
    (⟨bits e 0 32, bits e 32 32, [], n⟩ : TopkEntry)
  need (es.all fun e => e.index != 4294967295) 0x0105
  .ok es

/-- The entries of a candidate list used as input n (FORM 2), checked; `channel` is that of input 0's header. -/
def listEntries (capacity channel n : Nat) (ws : List Word) : Check (List TopkEntry) := do
  let count := bits (nth ws 0 0).toNat 32 5
  need (count ≤ capacity) 0x0101
  let es := (List.range count).map fun i =>
    let r := (ws.drop (1 + 10 * i)).take 10
    let h := (nth r 0 0).toNat
    (⟨bits h 64 32, bits h 0 32, r, n⟩ : TopkEntry)
  need (es.all fun e => bits e.index 24 4 == channel) 0x0114
  .ok es

/-- The entries of every input, in order. -/
def inputEntries (p : TopkParam) (merge : Bool) (inputs : List (List Word)) : Check (List TopkEntry) :=
  let channel := bits (nth (nth inputs 0 []) 0 0).toNat 40 4
  let one (x : Nat × List Word) : Check (List TopkEntry) :=
    if p.form == 1 then pairEntries p x.1 x.2 else listEntries (p.capacity merge) channel x.1 x.2
  let rec go : List (Nat × List Word) → Check (List TopkEntry)
    | [] => .ok []
    | x :: t => do
      let a ← one x
      let b ← go t
      .ok (a ++ b)
  if p.form == 0 then .ok (denseEntries p (nth inputs 0 [])) else go ((List.range inputs.length).zip inputs)

/-! ## Merging (R317) -/

/-- Distinct elements, further occurrences, and the occurrences that differ from the one kept. -/
structure Merged where
  kept : List TopkEntry
  further : List TopkEntry
  differ : List TopkEntry
  deriving DecidableEq, Repr

/-- Two occurrences agree. -/
def sameElement (p : TopkParam) (a b : TopkEntry) : Bool :=
  if p.form == 2 then a.record == b.record else plainKey p.keyType a.key == plainKey p.keyType b.key

/-- Merge the occurrences of all inputs. -/
def mergeEntries (p : TopkParam) (es : List TopkEntry) : Merged :=
  es.foldl (fun m e =>
    match m.kept.find? (·.index == e.index) with
    | some x =>
      { m with further := m.further ++ [e], differ := if sameElement p x e then m.differ else m.differ ++ [e] }
    | none => { m with kept := m.kept ++ [e] }) ⟨[], [], []⟩

/-! ## Sums (R314, R318) -/

/-- binary64 (R314). -/
def fp64 : FloatFormat := ⟨11, 52, (2 - pow2 (-52)) * pow2 1023⟩

/-- The value of a key in the sums: an F32 infinity counts as the largest finite value of its sign. -/
def keyValue (p : TopkParam) (key : Nat) : Rat :=
  match p.keyType with
  | 0 => (key : Rat)
  | 1 => ((signed 32 key : Int) : Rat)
  | _ => (decodeFloat fp32 key).1

/-- An exact sum. -/
def sumRat (l : List Rat) : Rat := l.foldl (· + ·) 0

/-- A sum field, and whether it saturated. -/
def sumField (p : TopkParam) (x : Rat) : Nat × Bool :=
  if p.keyType == 2 then (encodeFloat fp64 (roundFloat fp64 x).1, false)
  else
    let (v, s) := runFx (satTo minI64 maxI64 x.num)
    (unsigned 64 v, s)

/-- SUM_SEL + SUM_REST of an input record; none where a binary64 field is not finite. -/
def recordTotal (p : TopkParam) (ws : List Word) : Option Rat :=
  let h := (nth ws 0 0).toNat
  let field (lo : Nat) : Option Rat :=
    let v := bits h lo 64
    if p.keyType == 2 then (match decodeFloat fp64 v with | (x, false) => some x | (_, true) => none)
    else some ((signed 64 v : Int) : Rat)
  match field 128, field 192 with
  | some a, some b => some (a + b)
  | _, _ => none

/-! ## The selection and its records (R310 to R316) -/

/-- A finished selection. -/
structure Selection where
  param : TopkParam
  merge : Bool
  selected : List TopkEntry
  entries : Nat
  tied : Nat
  nans : Nat
  merged : Merged
  sumSel : Nat × Bool
  sumRest : Nat × Bool
  deriving DecidableEq, Repr

/-- SUM_REST of a TOPK or merge; none where an input's own sums are not finite. -/
def sumRest (p : TopkParam) (merge : Bool) (inputs : List (List Word)) (m : Merged) (all : List TopkEntry) (sel : Rat) : Option Rat :=
  let total : Option Rat :=
    if !merge || p.form == 2 then some (sumRat (all.map fun e => keyValue p e.key))
    else inputs.foldl (fun acc ws => match acc, recordTotal p ws with | some a, some b => some (a + b) | _, _ => none) (some 0)
  total.map fun t => t - sumRat (m.further.map fun e => keyValue p e.key) - sel

/-- The selection of R310 over entries; `free` stands for a SUM_REST that no rule states. -/
def select (p : TopkParam) (merge : Bool) (inputs : List (List Word)) (es : List TopkEntry) (free : Nat) : Selection :=
  let nans := (es.filter fun e => isNan p.keyType e.key).length
  let valid := es.filter fun e => !isNan p.keyType e.key
  let m : Merged := if merge then mergeEntries p valid else ⟨valid, [], []⟩
  let order := sortBy (chosenFirst p) m.kept
  let sel := order.take p.k
  let tied := match sel.getLast? with
    | some last => ((order.drop p.k).filter fun e => rankOf p e.key == rankOf p last.key).length
    | none => 0
  let s := sumRat (sel.map fun e => keyValue p e.key)
  { param := p, merge := merge, selected := sel, entries := m.kept.length, tied := tied, nans := nans, merged := m,
    sumSel := sumField p s,
    sumRest := match sumRest p merge inputs m valid s with
      | some x => sumField p x
      | none => (free, false) }

/-- Indices whose occurrences disagree. -/
def Selection.differing (x : Selection) : List Nat := (x.merged.differ.map (·.index)).eraseDups

/-- FIRST_DISAGREE. -/
def Selection.firstDisagree (x : Selection) : Nat := x.differing.foldl min 0xFFFFFFFF

/-- The result record. -/
def Selection.record (x : Selection) : List Word :=
  let p := x.param
  let n := x.selected.length
  let threshold := match x.selected.getLast? with | some e => plainKey p.keyType e.key | none => 0
  let entry (i : Nat) : Nat := match x.selected[i]? with
    | some e => plainKey p.keyType e.key + 2 ^ 32 * e.index
    | none => 2 ^ 32 * 0xFFFFFFFF
  word (at_ p.k 0 11 ||| at_ p.keyType 11 2 ||| at_ (b2n p.smallest) 13 1 ||| at_ n 16 11 ||| at_ (b2n (n < p.k)) 27 1 |||
      at_ (b2n (x.tied != 0)) 28 1 ||| at_ (b2n !x.merged.differ.isEmpty) 29 1 ||| at_ (b2n (x.nans != 0)) 30 1 |||
      at_ (b2n (x.sumSel.2 || x.sumRest.2)) 31 1 ||| at_ x.tied 32 32 ||| at_ x.entries 64 32 ||| at_ threshold 96 32 |||
      at_ x.sumSel.1 128 64 ||| at_ x.sumRest.1 192 64) ::
    word (at_ x.nans 0 32 ||| at_ x.merged.further.length 32 32 ||| at_ x.differing.length 64 32 ||| at_ x.firstDisagree 96 32 |||
      at_ (if x.merge then p.count else 1) 128 7) ::
    packWords 64 4 (ceilDiv p.k 4) ((List.range p.k).map entry)

/-- The kept candidate list of FORM 2. -/
def Selection.list (x : Selection) (header : Word) : List Word :=
  let n := x.selected.length
  let body := x.selected.flatMap (·.record)
  word (setBits header.toNat 32 5 n) :: body ++ List.replicate (10 * x.param.k - body.length) 0

/-! ## TOPK and TOPK_MERGE (R305, R320) -/

/-- Count an item that has run (TKS registers). -/
def countTopk (x : Selection) (s : State) : State :=
  let c := s.tks
  let n16 (n : Nat) (b : Bool) : Nat := satAdd 65535 n (b2n b)
  let bad := !x.merged.differ.isEmpty
  { s with tks := { c with
      ties := n16 c.ties (x.tied != 0)
      fewer := n16 c.fewer (x.selected.length < x.param.k)
      duplicates := n16 c.duplicates !x.merged.further.isEmpty
      disagrees := n16 c.disagrees bad
      nans := satAdd 4294967295 c.nans x.nans
      entries := satAdd (2 ^ 64 - 1) c.entries x.entries
      lastDisagree := if bad then BitVec.ofNat 32 x.firstDisagree else c.lastDisagree
      disagreeSeen := c.disagreeSeen || bad
      sumSatSeen := c.sumSatSeen || x.sumSel.2 || x.sumRest.2 } }

/-- Note whether the kept list at a key comes from an item that ended DISAGREE (R357). -/
def noteKept (key : Nat) (bad : Bool) (s : State) : State :=
  let others := s.tks.disagreed.filter (· != key)
  { s with tks.disagreed := if bad then others ++ [key] else others }

/-- The input words, one list for each input. -/
def getInputs (r : Requester) (p : TopkParam) (merge : Bool) (row : Span) : Run (List (List Word)) :=
  if merge then (List.range p.count).mapM fun n => getAll r (row.key + n * p.stride) p.stride
  else do
    let ws ← getAll r row.key (topkWords p merge).1
    pure [ws]

/-- TOPK or TOPK_MERGE for an item whose parameter block is read and checked. -/
def topkRun (merge : Bool) (it : Item) (j : Job) (block : Word) (p : TopkParam) (row out : Span) (kept : Option Span) : Run Result := do
  let r := it.requester
  let inputs ← getInputs r p merge row
  let es ← checkOp fun _ => inputEntries p merge inputs
  let x := select p merge inputs es (Config.sumRest block inputs).toNat
  let bad := !x.merged.differ.isEmpty
  let gs := clean x.record
  change fun s => countTopk x (writeGots out.key gs s)
  let d1 := digestGots j 2 0 gs
  let d2 ← match kept with
    | some sp =>
      if p.form == 2 then do
        let ls := clean (x.list (nth (nth inputs 0 []) 0 0))
        change fun s => noteKept sp.key bad (writeGots sp.key ls s)
        pure (digestGots j 3 0 ls)
      else pure 0
    | none => pure 0
  let d := m64 (d1 + d2)
  pure (if bad then done .disagree 0x0703 ((x.merged.differ.head?.map (·.input)).getD 0) 0 d else done .ok 0 0 0 d)

/-- An item that met poison: of operands 2 and 3, `words` words, or all of one where that is not known, carry the poison mark (R320, R399). -/
def topkPoisoned (j : Job) (it : Item) (words : Option (Nat × Nat)) (s : State) : State × Option Result :=
  let length (n : Nat) : Nat := ((j.operandSpan it.entry n).map (·.len)).getD 0
  let (s, a) := writeOut j it 2 0 (poisonGots ((words.map (·.1)).getD (length 2))) s
  let (s, b) := writeOut j it 3 0 (poisonGots ((words.map (·.2)).getD (length 3))) s
  (s, some (poisonedResult (m64 (a + b))))

/-- TOPK or TOPK_MERGE. -/
def topkItem (merge : Bool) (it : Item) (j : Job) (s : State) : State × Option Result :=
  let s := { s with tks.items := satAdd 4294967295 s.tks.items 1 }
  match j.operandSpan it.entry 0, j.operandSpan it.entry 1, j.operandSpan it.entry 2 with
  | some p, some row, some out =>
    let kept := j.operandSpan it.entry 3
    let (s, g) := readWord it.requester p.key s
    if g.bad then topkPoisoned j it none s
    else
      let q := topkParam g.data.toNat
      (match topkCheck q merge row.len out.len (kept.map (·.len)) (overlapOk it.entry j) with
       | .error f => (s, some f.result)
       | .ok _ => match runProg (topkRun merge it j g.data q row out kept) s with
         | (s, .ok r) => (s, some r)
         | (s, .error f) => if f.status == .poisoned then topkPoisoned j it (some (topkWords q merge).2) s else (s, some f.result))
  | _, _, _ => (s, some (Fail.result { reason := 0x0105 }))

end Sys2Proof.Machine
end

