-- ==== Sys2Proof/Machine/EntryCheck.lean ====
section
/-!
DEFINITION. The consistency check of instruction-list entries (R85 tests 2 to 12): access and PARAM of every operation (R513), operand
lengths (R81), combinations, timing, VARY marks (R79) and ownership (R86, R100).
-/

namespace Sys2Proof.Machine

open Sys2Proof

/-! ## Owners of resources (R86, R88) -/

/-- The claim on a resource. -/
def State.claimOf (s : State) (resource : Nat) : Option Claim := s.claims.find? (·.resource == resource)

/-- DETAIL_B of RESOURCE_CONFLICT: slot and service of the owner; 0xFFFF where nothing holds the resource (R225). -/
def State.ownerDetail (s : State) (o : Option OwnerRef) : Nat :=
  match o with
  | none => 0xFFFF
  | some o => match s.jobById o.job.toNat with
    | some (slot, _) => 256 * slot + o.service
    | none => 0xFF00 + o.service

/-- The service that holds a delay list: DLn_OWNER of the LINE block in force is set, and the claim stands (R52, R61, R86). -/
def State.listHolder (s : State) (n : Nat) : Option OwnerRef :=
  match s.lineBlock with
  | some b => if b.defaulted (19 + n) then none else (s.claimOf (0x0200 + n)).map (·.owner)
  | none => none

/-- The consumer that a port's CAMERA_PORT block names. -/
def State.portOwner (s : State) (n : Nat) : Option OwnerRef :=
  (s.camera n).map fun b => ⟨BitVec.ofNat 16 (b.field 11), b.field 12⟩

/-- Refuse with RESOURCE_CONFLICT unless the owner of the resource is the one expected. -/
def needOwner (s : State) (resource : Nat) (owner : Option OwnerRef) (want : OwnerRef) : Check Unit :=
  need (owner == some want) 0x0104 resource (s.ownerDetail owner)

/-! ## The list under check -/

/-- A list under check: its job, service, the SERVICE_TYPE of its header, its number, and its entries. -/
structure ListCtx where
  job : Job
  service : Nat
  serviceType : Nat
  number : Nat
  atArm : Bool
  entries : List Entry

/-- The enabled block of the list's service. -/
def ListCtx.block (c : ListCtx) : Option Block := c.job.service c.service

/-- The enabled block, when it is a PLANNING_CHANNEL block. -/
def ListCtx.channel (c : ListCtx) : Option Block := c.block.filter (·.serviceType == 0x11)

/-- The owner that the list's service is. -/
def ListCtx.owner (c : ListCtx) : OwnerRef := ⟨c.job.id, c.service⟩

/-- SYNC_BLOCKS and FLOW_BLOCKS of a block (R95). -/
def Block.syncBlocks (b : Block) : Nat := bits (b.word 1) 0 64
def Block.flowBlocks (b : Block) : Nat := bits (b.word 1) 64 64

/-- An object of the service's own blocks; a service without an enabled block declares none. -/
def ListCtx.declares (c : ListCtx) (obj : Nat) : Bool := match c.block with | some b => b.syncBlocks.testBit (obj / 1024) | none => false

/-- An object that some service of the job declares. -/
def Job.declares (j : Job) (obj : Nat) : Bool := j.enabledBlocks.any fun b => b.syncBlocks.testBit (obj / 1024)

/-! ## Forms of the operations (R513 and the rule of each operation) -/

/-- The PARAM values, the ACCESS codes of each operand, and the service types of an operation; no type listed means any. -/
structure OpForm where
  param : Nat → Bool
  access : List (List Nat) := []
  types : List Nat := []

/-- A PARAM of at most n bits. -/
def paramBits (n p : Nat) : Bool := p < 2 ^ n

/-- The form of an entry's operation; none for an unknown OPCODE. -/
def opForm (e : Entry) : Option OpForm :=
  let phase := bits (Entry.param e) 3 2
  match Entry.op e with
  | 0x0101 => some ⟨paramBits 0, [], []⟩
  | 0x0102 => some ⟨fun _ => true, [], []⟩
  | 0x0201 => some ⟨fun _ => true, [], []⟩
  | 0x0202 => some ⟨paramBits 0, [], []⟩
  | 0x0203 => some ⟨paramBits 3, [[1]], []⟩
  | 0x0204 => some ⟨paramBits 2, [[1]], []⟩
  | 0x0301 => some ⟨paramBits 0, [], [0x10]⟩
  | 0x0302 => some ⟨paramBits 0, [[0, 2]], [0x10]⟩
  | 0x0303 => some ⟨paramBits 0, [[1], [1]], []⟩
  | 0x0304 => some ⟨paramBits 0, [[1], [1], [2]], []⟩
  | 0x0401 => some ⟨paramBits 0, [[3], [2], [1]], [0x11]⟩
  | 0x0402 => some ⟨paramBits 0, [[3], [2], [1]], []⟩
  | 0x0501 => some ⟨paramBits 3, [[1], [2]], []⟩
  | 0x0502 => some ⟨paramBits 7, [[1], [3], [1], [2]], [0x11]⟩
  | 0x0503 => some ⟨paramBits 3, [[1], [3], [0, 1], [3]], []⟩
  | 0x0504 => some ⟨fun p => paramBits 5 p && phase != 3, if phase == 2 then [[1], [3], [0], [2, 3]] else [[1], [3], [1]], []⟩
  | 0x0601 => some ⟨paramBits 31, [[1], [3], [2]], []⟩
  | 0x0602 => some ⟨paramBits 0, [[1], [1], [1], [2]], []⟩
  | 0x0701 => some ⟨paramBits 0, [[1], [1], [2], [0, 2]], []⟩
  | 0x0702 => some ⟨paramBits 0, [[1], [1], [2], [0, 2]], []⟩
  | 0x0801 => some ⟨fun p => paramBits 4 p && bits p 2 2 != 3, [[2]], []⟩
  | 0x0802 => some ⟨paramBits 4, [], []⟩
  | 0x0803 => some ⟨paramBits 0, [[2]], [0x14]⟩
  | 0x0901 => some ⟨paramBits 4, [[1], [1], [1], [2]], [0x11]⟩
  | 0x0902 => some ⟨paramBits 0, [[1], [1], [1], [0, 2]], [0x11]⟩
  | 0x0903 => some ⟨paramBits 0, [[0], [0], [0], [0, 2]], [0x11]⟩
  | 0x0A01 => some ⟨paramBits 4, [[1], [2]], []⟩
  | 0x0A02 => some ⟨paramBits 4, [[1], [2]], []⟩
  | 0x0A03 => some ⟨paramBits 4, [[1], [1], [2]], []⟩
  | 0x0B01 => some ⟨paramBits 5, [[1]], [0x11, 0x15]⟩
  | 0x0B02 => some ⟨paramBits 1, [[1], [0, 2]], [0x14]⟩
  | 0x0B03 =>
    match bits (Entry.param e) 0 4 with
    | 0 => some ⟨paramBits 27, [[1], [1]], [0x10]⟩
    | 1 => some ⟨paramBits 27, [[1]], [0x11]⟩
    | 2 => some ⟨paramBits 27, [[1], [2]], [0x11]⟩
    | _ => some ⟨fun _ => false, [], []⟩
  | 0x0C01 => some ⟨fun _ => true, [[0, 1, 2, 3], [0, 1, 2, 3], [0, 1, 2, 3], [0, 1, 2, 3]], []⟩
  | _ => none

/-! ## Operands -/

/-- Operand i of an entry is used. -/
def Entry.uses (e : Entry) (i : Nat) : Bool := (Entry.operand e i).access != 0

/-- Words that operand i names, where its handle is known. -/
def Job.operandLen (j : Job) (e : Entry) (i : Nat) : Nat := ((j.operandSpan e i).map (·.len)).getD 0

/-- Operand i names the whole of a buffer. -/
def Job.wholeBuffer (j : Job) (e : Entry) (i handle : Nat) : Bool :=
  let o := Entry.operand e i
  o.buf == handle && o.offset == 0 && (match j.buffers[handle]? with | some b => o.words b.size == b.size | none => false)

/-- Operand i lies in the BSP. -/
def Job.inBsp (j : Job) (e : Entry) (i : Nat) : Bool := match j.operandSpan e i with | some sp => sp.key + sp.len ≤ bspWords | none => false

/-- Two spans share a word. -/
def Span.meets (a b : Span) : Bool := a.key < b.key + b.len && b.key < a.key + a.len

/-- Links of LINKS of a PEER_COLLECTIVE (R468). -/
def entryLinks (e : Entry) : List Nat := (List.range 7).filter fun n => (Entry.param e).testBit (4 + n)

/-- Words that an operation needs in operand i, as far as the entry and its blocks decide it (R81). -/
def neededWords (c : ListCtx) (e : Entry) (i : Nat) : Nat :=
  let k := (c.channel.map (·.field 7)).getD 1
  match Entry.op e, i with
  | 0x0401, 0 | 0x0402, 0 => 1 + 10 * k
  | 0x0401, 1 | 0x0402, 1 => 49152
  | 0x0502, 0 | 0x0902, 0 => 1 + 10 * k
  | 0x0502, 3 => 355
  | 0x0902, 1 => 355 * k
  | 0x0902, 2 => k
  | 0x0901, 0 => 81
  | 0x0902, 3 | 0x0903, 3 => 82
  | 0x0A01, 1 => c.job.operandLen e 0
  | 0x0A03, 0 => ceilDiv (c.job.operandLen e 2) 8
  | 0x0B02, 0 => (c.job.sheetBlock.map recordWords).getD 1
  | 0x0B03, 0 => if bits (Entry.param e) 0 4 == 0 then 32768 * (((entryLinks e).getLast?.map (· + 1)).getD 0) else 1 + 10 * k
  | 0x0B03, 1 => if bits (Entry.param e) 0 4 == 2 then (1 + (entryLinks e).length) * (1 + 10 * k) else 1
  | _, _ => 1

/-! ## Layers of a NETWORK_SEGMENT -/

/-- The network that a NETWORK_SEGMENT names. -/
def ListCtx.network (c : ListCtx) (e : Entry) : Option Network :=
  if Entry.op e == 0x0601 then c.job.network (bits (Entry.param e) 0 6) else none

/-- The layers that a NETWORK_SEGMENT runs, read from the image by the firmware. -/
def segmentLayers (n : Network) (e : Entry) : Run (List Layer) :=
  let (first, last) := segmentRange e
  ((List.range (last + 1 - first)).map (first + ·)).mapM fun l => getLayer { num := 1 } n l

/-- Nominal arithmetic clocks of a segment (R302). -/
def segmentClocks (n : Network) (e : Entry) (ls : List Layer) : Nat :=
  let asked := bits (Entry.param e) 26 5
  let w := if asked == 0 then n.tiling else asked
  ls.foldl (fun acc l => acc + layerClocks l.cOut l.columns l.chunks l.split w (decide (bspWords ≤ n.weightsAt))) 440

/-! ## The tests of R85 on one entry -/

/-- Test 2: all-ones and zero in length and count fields (R80, R97). -/
def entryTest2 (e : Entry) : Check Unit := do
  if Entry.op e == 0x0201 then
    need (bits (Entry.param e) 0 16 != 0xFFFF) 0x0107
    need (bits (Entry.param e) 0 16 != 0) 0x0108
  eachCheck (fun i => need (!Entry.uses e i || (Entry.operand e i).length != 0) 0x0108) (List.range 4)

/-- An operand's own fields: its ACCESS is one the operation names; an unused operand is zero; reserved bits are zero. -/
def operandFields (access : List Nat) (o : OperandRef) : Bool :=
  access.contains o.access && o.reserved == 0 && o.buf < 4096 && (o.access != 0 || (o.buf == 0 && o.offset == 0 && o.length == 0))

/-- GOLDEN_INJECT stands in MAIN_LIST after a CORRECTION_SEND, with FENCE or a wait on its signal (R344). -/
def goldenPlace (c : ListCtx) (i : Nat) (e : Entry) : Bool :=
  c.job.isMainList c.service c.number && (c.entries.take i).any fun x =>
    Entry.op x == 0x0B02 && (Entry.fence e || (Entry.waitEn e && Entry.signalEn x && Entry.signalSync x == Entry.waitSync e))

/-- The form of GOLD_LIST (R345): FRAME_TAKE of MODE 2 first, CORRECTION_SEND of GOLDEN 1 last, and no other CORRECTION_SEND, since its records are
never released (DEDUCED, log 68). -/
def goldenForm (c : ListCtx) (i : Nat) (e : Entry) : Bool :=
  (i != 0 || (Entry.op e == 0x0801 && bits (Entry.param e) 2 2 == 2)) &&
    (i + 1 != c.entries.length || Entry.op e == 0x0B02) && (Entry.op e != 0x0B02 || Entry.param e == 1)

/-- FIRST, LAST and w of a NETWORK_SEGMENT (R299): against the network where its NET_ID is loaded, else against what any network can have. -/
def segmentFields (n : Option Network) (e : Entry) : Check Unit :=
  let (first, last) := segmentRange e
  match n with
  | some n => need (first ≤ last && last < n.layers && bits (Entry.param e) 26 5 ≤ n.tiling) 0x0105
  | none => need (first ≤ last && bits (Entry.param e) 26 5 ≤ 16) 0x0105

/-- Test 3: ranges, reserved fields, known opcodes, places and forms (R74 to R76, R78, R106, R513). -/
def entryTest3 (c : ListCtx) (i : Nat) (e : Entry) : Check Unit := do
  let f ← needSome (opForm e) 0x0115
  need (Entry.op e != 0x0402 || (match c.channel with | some b => b.field 4 == 1 | none => false)) 0x0405
  need (f.types.isEmpty || f.types.contains c.serviceType) 0x0105
  need (!Entry.safety e || c.serviceType == 0x10 || c.serviceType == 0x11) 0x0105
  need (Entry.get e 23 1 == 0 && Entry.get e 27 5 == 0) 0x0105
  need (if Entry.ordered e then
      Entry.flow e < 1024 && (match c.block with | some b => b.flowBlocks.testBit (Entry.flow e / 16) | none => false)
    else Entry.flow e == 0) 0x0105
  need (Entry.waitEn e || Entry.waitSync e == 0) 0x0105
  need (Entry.signalEn e || Entry.signalSync e == 0) 0x0105
  need (Entry.waitLimit e != 0xFFFF) 0x0105
  need (f.param (Entry.param e)) 0x0105
  need (Entry.op e != 0x0801 || bits (Entry.param e) 2 2 != 2 || c.job.isGoldList c.service c.number) 0x0105
  need (Entry.op e != 0x0B02 || Entry.param e == 0 || c.job.isGoldList c.service c.number) 0x0105
  need (Entry.op e != 0x0803 || goldenPlace c i e) 0x0105
  need (!c.job.isGoldList c.service c.number || goldenForm c i e) 0x0105
  need (Entry.op e != 0x0B01 || c.job.operandLen e 0 ≤ 32) 0x0105
  if Entry.op e == 0x0601 then segmentFields (c.network e) e
  eachCheck (fun k => need (operandFields (nth f.access k [0]) (Entry.operand e k)) 0x0105) (List.range 4)

/-- The lane that an entry names (R225). -/
def entryLane (e : Entry) : Option Nat := if 0x0501 ≤ Entry.op e && Entry.op e ≤ 0x0504 then some (bits (Entry.param e) 0 3) else none

/-- The Move Engine that an entry names (R402). -/
def entryMover (e : Entry) : Option Nat := if 0x0A01 ≤ Entry.op e && Entry.op e ≤ 0x0A03 then some (bits (Entry.param e) 0 4) else none

/-- Test 6: handles and access (R77, R298, R343). -/
def entryTest6 (c : ListCtx) (s : State) (e : Entry) : Check Unit :=
  eachCheck (fun i => do
    let o := Entry.operand e i
    if o.access == 0 then .ok () else
    let b ← needSome c.job.buffers[o.buf]? 0x010A
    let owns := b.owner == c.service
    need (if 2 ≤ o.access then owns else owns || b.readers.getLsbD c.service) 0x010B
    let sp : Span := ⟨b.base / 32 + o.offset, o.words b.size⟩
    need (o.access < 2 || !(c.job.imageSpans ++ s.goldenSpans c.job).any (·.meets sp)) 0x010B) (List.range 4)

/-- Test 7: offsets and lengths (R81). -/
def entryTest7 (c : ListCtx) (e : Entry) : Check Unit :=
  eachCheck (fun i => do
    let o := Entry.operand e i
    if o.access == 0 then .ok () else
    let size := ((c.job.buffers[o.buf]?).map (·.size)).getD 0
    need (o.length != lengthToEnd || o.offset != size) 0x0108
    need (o.offset ≤ size && (o.length == lengthToEnd || o.offset + o.length ≤ size)) 0x0101
    need (neededWords c e i ≤ o.words size) 0x0101) (List.range 4)

/-- Test 7 on the layers of a segment: their extents lie within its operands (R299). -/
def segmentExtents (c : ListCtx) (e : Entry) (ls : List Layer) : Check Unit :=
  eachCheck (fun l => do
    need (l.inAt + l.inWords ≤ c.job.operandLen e (if l.src == 0 then 0 else 1)) 0x0101
    need (l.outAt + l.outWords ≤ c.job.operandLen e 1) 0x0101) ls

/-- Two operands in one buffer with overlapping extents. -/
def Job.overlap (j : Job) (e : Entry) (a b : Nat) : Bool :=
  match j.operandSpan e a, j.operandSpan e b with
  | some x, some y => x.meets y
  | _, _ => false

/-- The operand of an entry that must lie in the BSP (R235, R299). -/
def bspOperands (e : Entry) : List Nat :=
  match Entry.op e with
  | 0x0501 | 0x0502 | 0x0503 | 0x0504 => [1]
  | 0x0601 => [0, 1]
  | _ => []

/-- Test 5: a NETWORK_SEGMENT that asks for more panels than the grade has names absent ones (R2, R4); no other entry names a Work Core or a
panel. -/
def entryTest5 (s : State) (e : Entry) : Check Unit :=
  need (Entry.op e != 0x0601 || bits (Entry.param e) 26 5 ≤ s.panelsPresent) 0x0102

/-- Test 8: combinations of valid fields; TILING 16 in a Reproducible job is tested at the arm (R298). -/
def entryTest8 (c : ListCtx) (s : State) (e : Entry) : Check Unit := do
  let j := c.job
  let p := Entry.param e
  need (Entry.op e != 0x0202 || Entry.waitEn e) 0x0114
  need ((bspOperands e).all fun i => j.inBsp e i) 0x0114
  let chState := (c.channel.map (·.field 18)).getD 0x1000
  need (!(Entry.op e == 0x0401 || Entry.op e == 0x0402 || Entry.op e == 0x0502) || j.wholeBuffer e 2 chState) 0x0114
  if Entry.op e == 0x0701 || Entry.op e == 0x0702 then need (!j.overlap e 1 2 && !j.overlap e 1 3) 0x0114
  if Entry.op e == 0x0901 then
    need (j.wholeBuffer e 1 (((j.blockOf 0x12).map (·.field 20)).getD 0x1000)) 0x0114
    need (j.wholeBuffer e 2 ((c.channel.map (·.field 78)).getD 0x1000)) 0x0114
  if Entry.op e == 0x0B01 then
    need (match s.fieldBlock (bits p 0 2) with | some b => (nodeDef b (bits p 2 3)).role == 3 | none => false) 0x0114
  if Entry.op e == 0x0B03 then
    need ((entryLinks e).all fun n => (s.devField 5 0 0).testBit n) 0x0114
    if bits p 0 4 == 0 then
      match j.blockOf 0x12 with
      | some o =>
        need ((entryLinks e).all fun n => (o.field 11).testBit n) 0x0114
        need (j.wholeBuffer e 1 (o.field 21)) 0x0114
      | none => .ok ()
  match c.network e with
  | some n => need (!c.atArm || n.tiling == 12 || !j.reproducible) 0x0114
  | none => .ok ()

/-- Test 9: dependencies on other services; the OCCUPANCY block and the networks are tested at arm (R174, R298). -/
def entryTest9 (c : ListCtx) (e : Entry) : Check Unit := do
  if c.atArm then
    let occ := Entry.op e == 0x0301 || Entry.op e == 0x0302 || Entry.op e == 0x0303 ||
      (Entry.op e == 0x0B03 && bits (Entry.param e) 0 4 == 0)
    need (!occ || (c.job.blockOf 0x12).isSome) 0x010E
    need (Entry.op e != 0x0601 || (c.network e).isSome) 0x010E (bits (Entry.param e) 0 6)

/-- Test 10: item length against R27, as far as the entry decides it (R251, R299); a kernel's is the library's figure for it. -/
def entryTest10 (c : ListCtx) (s : State) (e : Entry) : Check Unit := do
  need (Entry.op e != 0x0504 || bits (Entry.param e) 3 2 == 2 || c.job.operandLen e 2 ≤ 32768) 0x0110
  need (Entry.op e != 0x0C01 ||
    Config.kernelTime s.fw.digest (BitVec.ofNat 32 (Entry.param e)) ((List.range 4).map (c.job.operandLen e)) ≤ 25000) 0x0110

/-- Test 11: a kernel that may vary carries VARY in a Normal job (R79). -/
def entryTest11 (c : ListCtx) (s : State) (e : Entry) : Check Unit :=
  need (Entry.vary e || c.job.reproducible || Entry.op e != 0x0C01 ||
    !mayVary s.fw.digest (BitVec.ofNat 32 (Entry.param e))) 0x010D

/-- Test 12: sync objects (R100), delay lists (R52), lanes (R225), Move Engines (R402) and camera ports (R334). -/
def entryTest12 (c : ListCtx) (s : State) (e : Entry) : Check Unit := do
  let p := Entry.param e
  let me := c.owner
  need (!Entry.waitEn e || c.declares (Entry.waitSync e)) 0x0204
  need (!Entry.signalEn e || c.job.declares (Entry.signalSync e)) 0x0204
  need (Entry.op e != 0x0201 || c.job.declares (bits p 16 16)) 0x0204
  need (!(Entry.op e == 0x0B03 && bits p 0 4 == 2 && bits p 11 16 != 0) || c.job.declares (bits p 11 16)) 0x0204
  if Entry.op e == 0x0203 || Entry.op e == 0x0204 then
    needOwner s (0x0200 + bits p 0 2) (s.listHolder (bits p 0 2)) me
  match entryLane e with
  | some n =>
    let o := (s.claimOf (0x0300 + n)).map (·.owner)
    let cycle : Option OwnerRef := (c.job.blockOf 0x10).map fun b => ⟨c.job.id, b.service⟩
    need (o == some me || (Entry.op e == 0x0502 && o.isSome && o == cycle)) 0x0104 (0x0300 + n) (s.ownerDetail o)
  | none => .ok ()
  match entryMover e with
  | some n => needOwner s (0x0A00 + n) ((s.claimOf (0x0A00 + n)).map (·.owner)) me
  | none => .ok ()
  if Entry.op e == 0x0801 then needOwner s (0x0400 + bits p 0 2) (s.portOwner (bits p 0 2)) me

/-- A test of an entry that needs only the state. -/
def entryTest (c : ListCtx) (test i : Nat) (e : Entry) (s : State) : Check Unit :=
  match test with
  | 2 => entryTest2 e
  | 3 => entryTest3 c i e
  | 5 => entryTest5 s e
  | 6 => entryTest6 c s e
  | 7 => entryTest7 c e
  | 8 => entryTest8 c s e
  | 9 => entryTest9 c e
  | 10 => entryTest10 c s e
  | 11 => entryTest11 c s e
  | 12 => entryTest12 c s e
  | _ => .ok ()

/-- The layers of a segment in tests 7, 10 and 11: extents, the limit of R27, and the VARY mark of FP32 accumulation. -/
def segmentTest (c : ListCtx) (test : Nat) (e : Entry) : Run Unit := do
  match c.network e with
  | none => pure ()
  | some n =>
    if test == 7 then
      let ls ← segmentLayers n e
      checkOp fun _ => segmentExtents c e ls
    else if test == 10 then
      let ls ← segmentLayers n e
      ensure (segmentClocks n e ls ≤ tensorLimit) 0x0110
    else if test == 11 then
      let ls ← segmentLayers n e
      ensure (Entry.vary e || c.job.reproducible || ls.all fun l => integerFormat l.inFmt) 0x010D
    else pure ()

/-- A failure of an entry carries its index (R85). -/
def atEntry (i : Nat) (m : Run Unit) : Run Unit := tryCatch m fun f => throw { f with entry := i }

/-- One test over the entries of a list, in ascending index. -/
def entriesTest (c : ListCtx) (test : Nat) : Nat → List Entry → Run Unit
  | _, [] => pure ()
  | i, e :: t => do
    atEntry i (do
      checkOp (entryTest c test i e)
      segmentTest c test e)
    entriesTest c test (i + 1) t

end Sys2Proof.Machine
end

