-- ==== Sys2Proof/Machine/BlockCheck.lean ====
section
/-!
DEFINITION. The consistency check of configuration blocks (R68 to R71, R85): headers, ranges, handles, relations, dependencies, timing,
and the claims of R86.
-/

namespace Sys2Proof.Machine

open Sys2Proof

/-! ## The header (R63, R68) -/

/-- The service types with one block in a job. -/
def singleTypes : List Nat := [0x10, 0x12, 0x13, 0x14]

/-- A SERVICE_ID that the table of R68 gives a device-level type. -/
def deviceService (serviceType service : Nat) : Bool :=
  match serviceType with
  | 0x01 => service == 0
  | 0x02 => 1 ≤ service && service ≤ 4
  | 0x03 => service == 5
  | 0x04 => service == 6
  | 0x05 => service == 7
  | 0x06 => 8 ≤ service && service ≤ 11
  | _ => false

/-- The level, type and SERVICE_ID of a block agree with R68. -/
def Block.placeOk (b : Block) : Bool :=
  if b.jobId == 0xFFFF then deviceService b.serviceType b.service else jobLevel b.serviceType && b.service < 64

/-- Reserved bits, ARITH_MODE and COUNT of a block's header are zero. -/
def headerClean (h : Nat) : Bool := bits h 24 8 == 0 && bits h 97 159 == 0

/-- The Shuttle section of R95: reserved bits zero, and DEFAULT_WAIT_LIMIT in its range. -/
def Block.shuttleOk (b : Block) : Bool :=
  !jobLevel b.serviceType || (bits (b.word 1) 184 72 == 0 && 1 ≤ bits (b.word 1) 128 16 && bits (b.word 1) 128 16 ≤ 65534)

/-! ## Claims (R86, R87) -/

/-- The service that a block configures. -/
def Block.owner (b : Block) : OwnerRef := ⟨b.jobId, b.service⟩

/-- The set bits among the low n, in ascending order. -/
def setBitsOf (n mask : Nat) : List Nat := (List.range n).filter fun i => mask.testBit i

/-- What the Shuttle section claims, in the order of its bits. -/
def shuttleClaims (b : Block) : List Nat :=
  if jobLevel b.serviceType then
    (setBitsOf 64 b.syncBlocks).map (0x0C00 + ·) ++ (setBitsOf 64 b.flowBlocks).map (0x0B00 + ·) ++
      (setBitsOf 8 (bits (b.word 1) 160 8)).map (0x0300 + ·) ++ (setBitsOf 16 (bits (b.word 1) 168 16)).map (0x0A00 + ·)
  else []

/-- The service that DLn_OWNER names (R71). -/
def lineOwner (b : Block) (n : Nat) : Option OwnerRef :=
  if b.defaulted (19 + n) then none else some ⟨BitVec.ofNat 16 (b.field (19 + n)), bits (b.field (19 + n)) 16 6⟩

/-- What the fields of a block claim, and for which service, in the order of the fields.  R86 lets a service that asks for capture claim encoder
input 1, and no block but LINE has a field for it: ENC1_MODE CAPTURE itself claims nothing (DESIGN CHOICE, log 63). -/
def bodyClaims (b : Block) : List (Nat × OwnerRef) :=
  let own (rs : List Nat) : List (Nat × OwnerRef) := rs.map fun r => (r, b.owner)
  match b.serviceType with
  | 0x01 =>
    own (if b.field 6 == 1 then [0x0101] else []) ++
      (List.range 4).filterMap fun n => (lineOwner b n).map fun o => (0x0200 + n, o)
  | 0x02 => own [0x0600 + b.service - 1]
  | 0x03 => own ((setBitsOf 7 (b.field 0)).map (0x0700 + ·))
  | 0x06 =>
    let n := b.service - 8
    let wanted : OwnerRef := ⟨BitVec.ofNat 16 (b.field 11), b.field 12⟩
    ([0x0400 + n] ++ (List.range (b.field 6)).map (0x0500 + 4 * n + ·) ++
      (if b.field 14 < 16 then [0x0A00 + b.field 14] else [])).map fun r => (r, wanted)
  | 0x11 => own ([0x0800 + b.field 0] ++ (if b.field 4 == 1 then [0x0900 + b.field 5] else []))
  | 0x14 => own (if b.field 16 == 1 then [0x0500 + 4 * b.field 0 + 3] else [])
  | _ => []

/-- Every claim of an enabled block. -/
def blockClaims (b : Block) : List Claim :=
  (((shuttleClaims b).map fun r => (r, b.owner)) ++ bodyClaims b).map fun (r, o) => ⟨r, o⟩

/-- A claim against the claims in force: another service holds the resource (R86). -/
def claimFree (s : State) (c : Claim) : Check Unit :=
  match s.claims.find? fun x => x.resource == c.resource && x.owner != c.owner with
  | some x => refuse 0x0104 c.resource (s.ownerDetail (some x.owner))
  | none => .ok ()

/-- The enabled CAMERA_PORT block of a port configures four frame buffers. -/
def State.fourBuffers (s : State) (n : Nat) : Bool := match s.camera n with | some b => b.field 6 == 4 | none => false

/-- The service whose enabled SHEET_LOOP block holds the golden frame in frame buffer 3 of a port. -/
def State.goldenHolder (s : State) (n : Nat) : Option OwnerRef :=
  s.jobs.findSome? fun j => (j.bind fun j => j.blockOf 0x14).bind fun b =>
    if b.field 16 == 1 && b.field 0 == n then some b.owner else none

/-- R87: the golden frame and a CAMERA_PORT block of four frame buffers exclude each other.  A block of one or two buffers meets no refusal of R87 and
is accepted (DESIGN CHOICE, log 88). -/
def goldenTest (s : State) (b : Block) : Check Unit :=
  if b.serviceType == 0x06 then
    let n := b.service - 8
    match s.goldenHolder n with
    | some o => need (b.field 6 != 4) 0x0104 (0x0503 + 4 * n) (s.ownerDetail (some o))
    | none => .ok ()
  else if b.serviceType == 0x14 && b.field 16 == 1 then
    need (!s.fourBuffers (b.field 0)) 0x0104 (0x0503 + 4 * b.field 0) (s.ownerDetail (s.portOwner (b.field 0)))
  else .ok ()

/-- A LINE block that defaults DLn_OWNER leaves list n unowned: no service holds it any longer (R61). -/
def unownLists (b : Block) (s : State) : State :=
  if b.serviceType == 0x01 then
    { s with claims := s.claims.filter fun c => !(0x0200 ≤ c.resource && c.resource < 0x0204 && (lineOwner b (c.resource - 0x0200)).isNone) }
  else s

/-- Release the claims that a service holds: its own block is written with ENABLE 0 (R70, R86).  A list that the LINE block in force gives to the
service is claimed for it again when a LINE block is written or the service's job is armed, and not before (DESIGN CHOICE, log 85). -/
def releaseClaims (owner : OwnerRef) (s : State) : State := { s with claims := s.claims.filter (·.owner != owner) }

/-- Take the claims of a block; a claim that its owner holds already stands. -/
def takeClaims (b : Block) (s : State) : State :=
  (blockClaims b).foldl (fun s c => if s.claims.contains c then s else { s with claims := s.claims ++ [c] }) s

/-! ## Ranges that depend on other fields (test 3) -/

/-- The EtherTypes that R443 excludes. -/
def excludedTypes : List Nat := [0x0800, 0x0806, 0x8100, 0x86DD, 0x88A8]

/-- Test 3 beyond the table of fields. -/
def Block.rangesOk (b : Block) (s : State) : Bool :=
  match b.serviceType with
  | 0x01 => b.field 3 < b.field 0
  | 0x02 =>
    !(b.field 4).testBit 0 && !excludedTypes.contains (b.field 5) && (b.defaulted 6 || (b.field 6).testBit 0) && b.field 11 % 32 == 0
  | 0x04 =>
    bits (b.field 0) 0 4 == 0 &&
      (List.range 64).all fun p => p < s.memCtl.regions || (b.field (94 + p) == 0 && !(b.field 93).testBit p)
  | 0x05 => b.field 0 + 50 ≤ b.field 1
  | 0x06 => (b.field 2 != 1 || b.field 4 % 4 == 0) && (b.field 2 != 2 || b.field 4 % 2 == 0)
  | 0x10 => 2 * s.lineTickLu ≤ b.field 1 && b.field 2 < b.field 1
  | 0x11 => b.field 70 + 50 ≤ b.field 12 && decide (b.int 73 < b.int 74)
  | 0x12 => b.field 5 < 1000 * b.field 4 && (b.defaulted 10 || b.field 4 < b.field 10)
  | 0x14 =>
    b.syncBlocks.testBit (b.field 8 / 1024) && b.syncBlocks.testBit (b.field 9 / 1024) && b.field 18 ≤ b.field 19 && (b.field 16 == 0 || !b.defaulted 17) && (b.field 10 != 4 || !b.defaulted 14)
  | _ => true

/-! ## Relations (test 8) -/

/-- Numbers without a gap. -/
def contiguous : List Nat → Bool
  | a :: b :: t => a + 1 == b && contiguous (b :: t)
  | _ => true

/-- The regions that a MEMORY_REGIONS block gives an owner: BSP regions for PATTERN, else LPDDR5 regions. -/
def ownedRegions (b : Block) (owner : Nat) : List Nat :=
  if owner == 5 then ((List.range 92).map (· + 4)).filter fun n => b.field (n - 3) == 5
  else (List.range 64).filter fun p => b.field (94 + p) == owner

/-- No region of the active Pattern's slot or area changes its owner or code (R381). -/
def patternKept (s : State) (b : Block) : Bool :=
  match s.pat.active with
  | none => true
  | some p =>
    let old (f : Nat) : Nat := s.devField 6 f 0
    let same (owner field code : Nat) (bit : Nat) : Bool :=
      (old field != owner && b.field field != owner) ||
        (old field == b.field field && (old code).testBit bit == (b.field code).testBit bit)
    (List.range 92).all (fun i => same 5 (1 + i) 0 (4 + i)) && (List.range 64).all fun q => same (6 + p.slot) (94 + q) 93 q

/-- The relations of a FIELD_PORT block (R444). -/
def portRelations (b : Block) : Bool :=
  let nodes := ((List.range 8).map (nodeDef b)).filter (·.role != 0)
  let ids := nodes.map (·.plca)
  let macs := nodes.map (·.mac)
  ids.eraseDups.length == ids.length && !ids.contains (b.field 0) && (b.field 0 != 0 || ids.all (· < b.field 1)) &&
    macs.all (fun m => !m.testBit 0) && macs.eraseDups.length == macs.length && !macs.contains (b.field 4)

/-- A delay list keyed to a position and owned by the block's service (R17, R337). -/
def Block.ownsList (b : Block) (s : State) (n : Nat) (onV : Bool) : Bool :=
  match s.lineBlock with
  | some l => lineOwner l n == some b.owner && s.listOnV n == onV
  | none => false

/-- A handle names a buffer of the BSP, or of LPDDR5; before the job has a buffer table the question waits for the arm (log 34). -/
def Job.bufferIn (j : Job) (h : Nat) (lpddr : Bool) : Bool :=
  match j.buffers[h]? with
  | some b => (decide (lpddrBase ≤ b.base / 32)) == lpddr
  | none => j.buffers.isEmpty

/-- Test 8. -/
def Block.relationsOk (b : Block) (s : State) (j : Option Job) : Bool :=
  match b.serviceType with
  | 0x01 => b.field 1 * b.field 5 ≤ 1100 && (b.field 12 != 2 || b.field 6 != 1)
  | 0x02 => portRelations b
  | 0x04 =>
    contiguous (ownedRegions b 5) && (ownedRegions b 5).length ≤ 45 && contiguous (ownedRegions b 6) &&
      contiguous (ownedRegions b 7) && patternKept s b
  | 0x10 => b.ownsList s (b.field 0) true && b.syncBlocks.testBit (b.field 3 / 1024)
  | 0x11 => b.field 12 < b.field 11
  | 0x12 =>
    b.field 8 < b.field 9 && (match j with | some j => j.bufferIn (b.field 20) false && j.bufferIn (b.field 21) true | none => false)
  | 0x14 =>
    b.ownsList s (b.field 1) false && b.field 2 < b.field 3
  | _ => true

/-! ## Buffers that a block names (tests 6 and 7) -/

/-- A handle that a block names: the words it needs, and whether the service must own it. -/
structure HandleUse where
  handle : Nat
  words : Nat
  owned : Bool
  deriving DecidableEq, Repr

/-- The handles of a block, in the order of its fields (R95, R151, R201, R337, R348). -/
def blockHandles (b : Block) : List HandleUse :=
  let sync : List HandleUse :=
    if jobLevel b.serviceType && b.syncBlocks != 0 then [⟨bits (b.word 1) 144 16, 128 * (setBitsOf 64 b.syncBlocks).length, true⟩] else []
  sync ++ match b.serviceType with
  | 0x11 => [⟨b.field 18, 256, true⟩, ⟨b.field 78, 1, false⟩]
  | 0x12 => [⟨b.field 20, 524288, true⟩, ⟨b.field 21, 2850816, true⟩]
  | 0x14 =>
    [⟨b.field 13, recordWords b, false⟩] ++ (if b.field 10 == 4 then [⟨b.field 14, b.field 15 * recordWords b, true⟩] else []) ++
      (if b.field 16 == 1 then [⟨b.field 17, recordWords b, false⟩] else [])
  | _ => []

/-- A service may read a buffer. -/
def Buffer.readableBy (x : Buffer) (service : Nat) : Bool := x.owner == service || x.readers.getLsbD service

/-- Test 6 on a handle. -/
def handleTest (j : Job) (service : Nat) (h : HandleUse) : Check Unit := do
  let x ← needSome j.buffers[h.handle]? 0x010A
  need (if h.owned then x.owner == service else x.readableBy service) 0x010B

/-- Every planning channel of the job reads OCC_BITMAP (R151). -/
def bitmapReaders (j : Job) (b : Block) : Check Unit :=
  match j.buffers[b.field 20]? with
  | some x => eachCheck (fun c => need (x.readableBy c.service) 0x010B) (j.enabledBlocks.filter (·.serviceType == 0x11))
  | none => .ok ()

/-! ## The tests of R85 on a block -/

/-- Test 4: one block of a type in a job (R68), four privileged channels (R202). -/
def blockTest4 (j : Job) (b : Block) : Check Unit := do
  let others := j.enabledBlocks.filter (·.service != b.service)
  need (!singleTypes.contains b.serviceType || others.all (·.serviceType != b.serviceType)) 0x0106
  need (b.serviceType != 0x11 || b.field 4 == 0 || (others.filter fun x => x.serviceType == 0x11 && x.field 4 == 1).length < 4) 0x0106

/-- The block depends on the OCCUPANCY service of its job (R174). -/
def Block.needsOccupancy (b : Block) : Bool := b.serviceType == 0x11 || b.serviceType == 0x13

/-- The OCCUPANCY block whose relations are checked with a block: itself, or the one that it depends on (R174). -/
def occupancyWith (j : Option Job) (b : Block) : Option Block :=
  if b.serviceType == 0x12 then some b else if b.needsOccupancy then j.bind fun j => j.blockOf 0x12 else none

/-- Test 9: dependencies (R16, R174). -/
def blockTest9 (s : State) (j : Option Job) (b : Block) : Check Unit := do
  need (b.serviceType != 0x10 || s.lineField 10 0 != 0) 0x010E
  match occupancyWith j b with
  | some o => need (o.field 11 == 0 || (s.devBlock 5).isSome) 0x010E
  | none => need (!b.needsOccupancy) 0x010E

/-- The control-cycle period of a job at the virtual rate, in thousandths of a µs of LU × 1,000: PERIOD and VIRT_RATE (R17, R21). -/
def State.cycleRate (s : State) (j : Job) : Option (Nat × Nat) :=
  match j.blockOf 0x10 with
  | some b => if s.lineField 10 0 == 0 then none else some (b.field 1, s.lineField 10 0)
  | none => none

/-- A time in µs lies below the control-cycle period. -/
def State.belowPeriod (s : State) (j : Job) (us : Nat) : Bool :=
  match s.cycleRate j with
  | some (period, rate) => us * rate < 1000 * period
  | none => true

/-- A second DRIVE node for one channel, on this port or on another (R444). -/
def driveConflict (s : State) (b : Block) : Check Unit :=
  eachCheck (fun m =>
    let d := nodeDef b m
    if d.role != 1 then .ok () else
    let here := (List.range m).any fun k => (nodeDef b k).role == 1 && (nodeDef b k).channel == d.channel
    let there := (List.range 4).find? fun n => 1 + n != b.service && (match s.fieldBlock n with
      | some x => (nodeWith x fun y => y.role == 1 && y.channel == d.channel).isSome
      | none => false)
    match there with
    | some n => refuse 0x0104 (0x0800 + d.channel) (0xFF01 + n)
    | none => need (!here) 0x0104 (0x0800 + d.channel) (0xFF00 + b.service)) (List.range 8)

/-- The Frame Intake ports that are used with a block, and the service that must be their consumer (R86, R174). -/
def usedPorts (j : Option Job) (b : Block) : List (Nat × OwnerRef) :=
  if b.serviceType == 0x14 then [(b.field 0, b.owner)]
  else match occupancyWith j b with
    | some o => (setBitsOf 4 (o.field 7)).map fun n => (n, o.owner)
    | none => []

/-- Test 12: claims, and the consumers of the ports that the block uses. -/
def blockTest12 (s : State) (j : Option Job) (b : Block) : Check Unit := do
  if b.serviceType == 0x02 then driveConflict s b
  eachCheck (claimFree s) (blockClaims b)
  goldenTest s b
  eachCheck (fun (n, o) => needOwner s (0x0400 + n) (s.portOwner n) o) (usedPorts j b)

/-- The fields of a block that count things: objects, bytes, frames, pixels, lines, bands, encoder counts, samples, iterations or sheets (R80, log 64).
Field number, and whether its range admits zero. -/
def countFields (serviceType : Nat) : List (Nat × Bool) :=
  match serviceType with
  | 0x01 => [(0, false), (1, false), (4, true), (7, false)]
  | 0x02 => [(1, false), (3, true), (10, true), (11, false)]
  | 0x05 => [(3, false), (4, false), (5, false)]
  | 0x06 => [(4, false), (5, false), (6, false), (9, false)]
  | 0x11 => [(7, false), (8, false), (13, false), (14, false), (15, false), (16, false), (17, false), (71, false)]
  | 0x12 => [(6, false)]
  | 0x14 => [(11, false), (12, true), (15, false), (18, false), (19, false)]
  | _ => []

/-- Test 2 on a block: all-ones and zero in its count fields, in ascending position; a defaulted field is not written (R80, R85). -/
def blockTest2 (b : Block) : Check Unit :=
  eachCheck (fun (f, zero) =>
    if b.defaulted f then .ok ()
    else do
      need (b.field f != 0xFFFFFFFF) 0x0107
      need (zero || b.field f != 0) 0x0108) (countFields b.serviceType)

/-- The joint fields of a channel block for the joints of its partition (R71, R260). -/
def jointFieldsOk (b : Block) (joints : Nat) : Bool :=
  (List.range joints).all fun k => (List.range 6).all fun g =>
    let f := 19 + 8 * g + k
    let mustSet := g == 1 || g == 2
    match (blockFields 0x11)[f]? with
    | some d => (match d.kind with
      | .joint lo hi => if b.defaulted f then !mustSet else lo ≤ b.field f && b.field f ≤ hi
      | _ => true)
    | none => true

/-- A test of an enabled block against its job and the device-level blocks.  Test 5 has nothing to test: no field of any block names a Work Core or
a panel, and ports and lanes are those of both grades (R2, R71). -/
def blockTest (test : Nat) (j : Option Job) (b : Block) (s : State) : Check Unit :=
  match test with
  | 2 => blockTest2 b
  | 3 => need (b.placeOk && headerClean (b.word 0) && b.shuttleOk && b.fieldsOk && b.rangesOk s) 0x0105
  | 4 => match j with | some j => blockTest4 j b | none => .ok ()
  | 6 => match j with
    | some j => do
      eachCheck (handleTest j b.service) (blockHandles b)
      if b.serviceType == 0x12 then bitmapReaders j b
    | none => .ok ()
  | 7 => match j with
    | some j => eachCheck (fun h => need (h.words ≤ ((j.buffers[h.handle]?).map (·.size)).getD 0) 0x0101) (blockHandles b)
    | none => .ok ()
  | 8 => need (b.relationsOk s j) 0x0114
  | 9 => blockTest9 s j b
  | 10 => match j with | some j => need (b.serviceType != 0x11 || s.belowPeriod j (b.field 12)) 0x010F | none => .ok ()
  | 12 => blockTest12 s j b
  | _ => .ok ()

end Sys2Proof.Machine
end

