-- ==== Sys2Proof/Machine/Contract.lean ====
section
/-!
DEFINITION. The commands that build jobs (R63 to R73, R84, R85, R476, R488): JOB_DEFINE, JOB_DELETE, TABLE_LOAD, LIST_LOAD,
CONFIG_WRITE and NETWORK_LOAD, and the two that steer a running one: CHANNEL_GOAL and SERVICE_PRIORITY (R489).

Each command gives the state it leaves and its completion record.
-/

namespace Sys2Proof.Machine

open Sys2Proof

/-- A command's outcome: the state, and its completion. -/
abbrev CmdResult := State × Completion

/-- The completion that a program gives, under the job and service that the command names. -/
def completionOf (r : State × Except Fail Unit) (job : BitVec 16 := 0xFFFF) (service : Nat := 0) : CmdResult :=
  match r with
  | (s, .ok _) => (s, { job := job, service := service })
  | (s, .error f) => (s, f.completion job service)

/-- A command refused with a reason. -/
def refused (reason : Nat) (s : State) (job : BitVec 16 := 0xFFFF) (service a b : Nat := 0) : CmdResult :=
  (s, { status := .refused, reason := reason, job := job, service := service, a := a, b := b })

/-- A check that changes the state where it succeeds, as a command. -/
def checkCmd (c : Check State) (s : State) : CmdResult :=
  match c with
  | .ok t => (t, {})
  | .error f => (s, f.completion)

/-! ## Reading a Contract object (R63, R64) -/

/-- Argument i of a command. -/
def arg (a : List Nat) (i : Nat) : Nat := nth a i 0

/-- A device address in two arguments (R486). -/
def argAddr (a : List Nat) (i : Nat) : Nat := arg a i + 2 ^ 32 * arg a (i + 1)

/-- Firmware on CC0 as a requester. -/
def fwReq : Requester := { num := 1 }

/-- A word of an object as the firmware reads it; a reserved address reads as zero and is a violation (R407). -/
def objectWord (k : Nat) (s : State) : State × Got :=
  if (s.ownerOf k).isSome then readWord fwReq k s else (violate 1 (32 * k) false false false s, ⟨0, false⟩)

/-- Successive words of an object. -/
def objectWords (k : Nat) : Nat → Run (List Word)
  | 0 => pure []
  | n + 1 => do
    let g ← stateOp (objectWord k)
    if g.bad then poisoned
    let ws ← objectWords (k + 1) n
    pure (g.data :: ws)

/-- The header of the object that ARG1 to ARG3 name, its length and alignment tested first. -/
def objectHeader (a : List Nat) : Run Nat := do
  ensure (arg a 3 != 0xFFFFFFFF) 0x0107
  ensure (arg a 3 != 0) 0x0108
  ensure (argAddr a 1 % 32 == 0) 0x0109
  let ws ← objectWords (argAddr a 1 / 32) 1
  pure (nth ws 0 0).toNat

/-- LENGTH, JOB_ID, SERVICE_ID, SERVICE_TYPE and COUNT of a header. -/
def headLength (h : Nat) : Nat := bits h 32 32
def headJob (h : Nat) : BitVec 16 := BitVec.ofNat 16 (bits h 64 16)
def headService (h : Nat) : Nat := bits h 80 8
def headType (h : Nat) : Nat := bits h 88 8
def headCount (h : Nat) : Nat := bits h 128 32

/-- Every Contract object declares version 1 (R5). -/
def versionTest (h : Nat) : Run Unit := ensure (bits h 16 8 == 1) 0x0103

/-- Test 1 on type and version. -/
def headTest (type h : Nat) : Run Unit := do
  ensure (bits h 0 16 == type) 0x0113
  versionTest h

/-- Test 1 on an object whose COUNT implies `implied` words: COUNT beyond LENGTH, LENGTH beyond COUNT, and LENGTH beyond ARG3. -/
def lengthTest (a : List Nat) (h implied : Nat) : Run Unit := do
  ensure (implied ≤ headLength h) 0x0101
  ensure (headLength h == implied) 0x0113
  ensure (headLength h ≤ arg a 3) 0x0101

/-- Reserved bits and ENABLE of a header that is no configuration block; ARITH_MODE only where it may stand.  R63 gives SERVICE_ID and SERVICE_TYPE
no meaning in a JOB or a BUFFER_TABLE, and any value passes there (DESIGN CHOICE, log 44). -/
def plainHeader (h : Nat) (arith count : Bool) : Bool :=
  bits h 24 8 == 0 && bits h 96 1 == 0 && (arith || bits h 97 1 == 0) && bits h 98 30 == 0 && (count || headCount h == 0) && bits h 160 96 == 0

/-- A command that reads an object: the header names the job of its completion, and the service of a list or a block; a job and a buffer table name
no service (R63, R487). -/
def objectCmd (a : List Nat) (job : Option (BitVec 16)) (named : Bool) (check : Nat → Run Unit) (s : State) : CmdResult :=
  match runProg (objectHeader a) s with
  | (s, .ok h) => completionOf (runProg (check h) s) (job.getD (headJob h)) (if named then headService h else 0)
  | (s, .error f) => (s, f.completion (job.getD 0xFFFF))

/-! ## JOB_DEFINE and JOB_DELETE (R65, R93, R476) -/

/-- Entries of the launch table (R93). -/
def launchEntry (launch : Word) (i : Nat) : Nat := Word.get launch (16 * i) 16

/-- The launch table of a JOB object. -/
def launchOk (launch : Word) : Bool :=
  (List.range 16).all fun i => let v := launchEntry launch i; v == 0 || (v.testBit 15 && !v.testBit 14)

/-- Check a JOB object and place its job in a slot. -/
def defineProg (slot : Nat) (a : List Nat) (h : Nat) : Run Unit := do
  headTest 1 h
  ensure (headLength h == 3) 0x0113
  ensure (3 ≤ arg a 3) 0x0101
  let ws ← objectWords (argAddr a 1 / 32) 3
  let det := (nth ws 1 0).toNat
  let launch := nth ws 2 0
  ensure (headCount h != 0xFFFFFFFF) 0x0107
  ensure (plainHeader h true false && headJob h != 0xFFFF && bits det 224 32 == 0 && launchOk launch) 0x0105
  let s ← get
  ensure (s.jobById (headJob h).toNat).isNone 0x0114
  let j : Job :=
    { id := headJob h, state := .defined, reproducible := bits h 97 1 == 1, seed0 := BitVec.ofNat 64 det,
      seed1 := BitVec.ofNat 64 (det / 2 ^ 64), digestKey := BitVec.ofNat 64 (det / 2 ^ 128), stepBase := BitVec.ofNat 32 (det / 2 ^ 192),
      launch := launch, buffers := [], lists := [], blocks := [], networks := [], priorities := [], launchAt := 0, triggered := [] }
  change fun s => { s with jobs := upd s.jobs slot fun _ => some j }

/-- JOB_DEFINE (0x0101). -/
def jobDefineCmd (a : List Nat) (s : State) : CmdResult :=
  let slot := bits (arg a 0) 0 2
  if (s.jobIn slot).isSome then refused 0x0112 s
  else objectCmd a none false (defineProg slot a) s

/-- JOB_DELETE (0x0102). -/
def jobDeleteCmd (a : List Nat) (s : State) : CmdResult :=
  let id := BitVec.ofNat 16 (arg a 0)
  match s.jobById id.toNat with
  | some (slot, j) =>
    if j.state != .defined then refused 0x0112 s id
    else ({ s with jobs := upd s.jobs slot fun _ => none, claims := s.claims.filter fun c => c.owner.job != id },
      { job := id })
  | none => refused 0x0112 s id

/-- The DEFINED job that ARG0 names. -/
def definedJob (a : List Nat) (s : State) : Option (Nat × Job) :=
  match s.jobById (bits (arg a 0) 0 16) with
  | some (slot, j) => if j.state == .defined then some (slot, j) else none
  | none => none

/-! ## TABLE_LOAD (R72, R73) -/

/-- A buffer-table entry. -/
def bufferOf (w : Word) : Buffer :=
  { base := Word.get w 0 64, size := Word.get w 64 32, owner := Word.get w 96 6, readers := BitVec.ofNat 64 (Word.get w 128 64) }

/-- First key after the region that holds a key. -/
def State.regionEnd (s : State) (k : Nat) : Nat :=
  if k < bspWords then 32768 * (k / 32768 + 1)
  else match s.lpRegion k with | some p => s.lpStart (p + 1) | none => k + 1

/-- The words from a key up to another lie in regions of an owner; the first number bounds the regions walked. -/
def insideRegions (s : State) (owner : Nat) : Nat → Nat → Nat → Bool
  | 0, _, _ => false
  | n + 1, k, e => e ≤ k || (s.ownerOf k == some owner && insideRegions s owner n (s.regionEnd k) e)

/-- The words of a buffer. -/
def Buffer.span (b : Buffer) : Span := ⟨b.base / 32, b.size⟩

/-- Test 6 on buffers, in ascending handle: alignment, regions of the job's slot, and overlap with an earlier buffer (R72, R73).  A buffer is no list
entry: the record's ENTRY stays 0xFFFF (R487). -/
def placeBuffers (s : State) (slot : Nat) : List Buffer → List Buffer → Check Unit
  | _, [] => .ok ()
  | before, b :: t =>
    if b.base % 32 != 0 then refuse 0x0109
    else if !insideRegions s (slot + 1) 200 b.span.key (b.span.key + b.span.len) then refuse 0x0116
    else if before.any fun x => x.span.meets b.span then refuse 0x010C
    else placeBuffers s slot (before ++ [b]) t

/-- Check a buffer table and put it in the place of the job's table. -/
def tableProg (slot : Nat) (j : Job) (a : List Nat) (h : Nat) : Run Unit := do
  headTest 4 h
  lengthTest a h (1 + headCount h)
  ensure (headCount h != 0) 0x0108
  let ws ← objectWords (argAddr a 1 / 32 + 1) (headCount h)
  checkOp fun _ => eachCheck (fun w => do
    need (Word.get w 64 32 != 0xFFFFFFFF) 0x0107
    need (Word.get w 64 32 != 0) 0x0108) ws
  ensure (plainHeader h false true && headJob h == j.id) 0x0105
  checkOp fun _ => eachCheck (fun w => need (Word.get w 102 26 == 0 && Word.get w 192 64 == 0) 0x0105) ws
  ensure (headCount h ≤ 4096) 0x0106
  let bufs := ws.map bufferOf
  checkOp fun s => placeBuffers s slot [] bufs
  let j' := { j with buffers := bufs }
  match j.blockOf 0x12 with
  | some b => checkOp fun _ => bitmapReaders j' b
  | none => pure ()
  change fun s => s.setJob slot fun x => { x with buffers := bufs }

/-- TABLE_LOAD (0x0103). -/
def tableLoadCmd (a : List Nat) (s : State) : CmdResult :=
  match definedJob a s with
  | none => refused 0x0112 s (BitVec.ofNat 16 (arg a 0))
  | some (slot, j) => objectCmd a (some j.id) false (tableProg slot j a) s

/-! ## LIST_LOAD (R74 to R83, R100, R513) -/

/-- Entries of 64 bytes from successive words. -/
def entriesOf : List Word → List Entry
  | a :: b :: t => BitVec.ofNat 512 (a.toNat + 2 ^ 256 * b.toNat) :: entriesOf t
  | _ => []

/-- Tests over a list's entries. -/
def listTests (c : ListCtx) (tests : List Nat) : Run Unit := tests.forM fun t => entriesTest c t 0 c.entries

/-- The SERVICE_TYPE of a list's header is the type of its service's enabled block. -/
def ListCtx.typeOk (c : ListCtx) : Bool := match c.block with | some b => b.serviceType == c.serviceType | none => true

/-- Check an instruction list and put it in the place of any list of its number in its service. -/
def listProg (slot : Nat) (j : Job) (a : List Nat) (h : Nat) : Run Unit := do
  headTest 3 h
  lengthTest a h (1 + 2 * headCount h)
  ensure (headCount h != 0) 0x0108
  let ws ← objectWords (argAddr a 1 / 32 + 1) (2 * headCount h)
  let number := bits (arg a 0) 16 8
  let c : ListCtx := { job := j, service := headService h, serviceType := headType h, number := number, atArm := false, entries := entriesOf ws }
  listTests c [2]
  ensure (plainHeader h false true && headJob h == j.id && jobLevel (headType h) && headService h < 64) 0x0105
  listTests c [3]
  ensure (headCount h ≤ 16384) 0x0106
  let others := j.lists.filter fun l => !(l.service == c.service && l.number == number)
  ensure (others.length < 256) 0x0106
  listTests c [5, 6, 7]
  ensure c.typeOk 0x0114
  listTests c [8, 9, 10, 11, 12]
  change fun s => s.setJob slot fun x => { x with lists := others ++ [⟨c.service, number, c.entries⟩] }

/-- LIST_LOAD (0x0104). -/
def listLoadCmd (a : List Nat) (s : State) : CmdResult :=
  match definedJob a s with
  | none => refused 0x0112 s (BitVec.ofNat 16 (arg a 0))
  | some (slot, j) => objectCmd a (some j.id) true (listProg slot j a) s

/-! ## CONFIG_WRITE (R69, R70, R382) -/

/-- The BSP regions whose code differs, and the first LPDDR5 region whose code differs. -/
def codeChanges (old new : State) : List Nat × Option Nat :=
  ((List.range 96).filter fun n => (old.devField 6 0 0).testBit n != (new.devField 6 0 0).testBit n,
   (List.range old.memCtl.regions).find? fun p => old.lpCode p != new.lpCode p)

/-- The contents that a change of codes leaves undefined (R382). -/
def forgetChanged (old new : State) : State :=
  let (bsp, lp) := codeChanges old new
  let s := bsp.foldl (fun s n => forgetWords (32768 * n) 32768 s) new
  let s := match lp with | some p => forgetLpddr (old.lpStart p) s | none => s
  if old.devField 6 158 0 != new.devField 6 158 0 then forgetWords (memKey memEdge 0 0) 1048576 s else s

/-- A LINE block comes into force under ENC_COUNTS c: n counts under it, and where n counted under another value the line is LOST (R61).  A block
stored with ENABLE 0 leaves the line as it is (DESIGN CHOICE, log 59). -/
def countUnder (c : Nat) (s : State) : State :=
  let s : State := if s.line.counts != 0 && s.line.counts != c then
      { s with line.state := .lost, line.lossReason := 0x0B47, line.remoteLost := false }
    else s
  { s with line.counts := c }

/-- The inputs under a LINE block that comes into force: the one that begins to count takes over n, and an input that comes into use with its
ENCn_FLT_N low meets that standing condition at once (R41, R42, R61). -/
def inputsUnder (old : State) (s : State) : State :=
  let n := (old.line.input old.source).n
  let s : State := { s with line.source1 := s.line.source1 && s.enc1Mode == 1 }
  (List.range 2).foldl (fun s i =>
    let fresh := s.decodes i && (!old.decodes i || (s.source == i && old.source != i))
    let s := if fresh && (i == 1 || old.decodes i) then setInput i (fun e => { e with n := n }) s else s
    if fresh && (s.line.input i).faultLow then inputLoss i 0x0B40 s else s) s

/-- What a LINE block that comes into force changes at once. -/
def lineReplaced (old : State) (s : State) : State :=
  match s.lineBlock with
  | some b =>
    let s := inputsUnder old (countUnder (b.field 0) s)
    if s.role == .follower && old.role != .follower then { s with line.lastApplied := s.now } else s
  | none => s

/-- A block takes its place, and what follows from it at once: an enabled block takes its claims, and one with ENABLE 0 releases every claim that its
service holds, whichever block made it (R70, R86). -/
def putBlock (slot : Option Nat) (b : Block) (s : State) : State :=
  let old := s
  let s : State := match slot with
    | some n => s.setJob n fun j => { j with blocks := insertBy (fun x y => x.service < y.service) b (j.blocks.filter (·.service != b.service)) }
    | none => { s with devBlocks := insertBy (fun x y => x.service < y.service) b (s.devBlocks.filter (·.service != b.service)) }
  let s := if b.enabled then takeClaims b (unownLists b s) else releaseClaims b.owner s
  if slot.isSome then s
  else
    let s := if b.serviceType == 0x01 then lineReplaced old (forgetChanged old s) else forgetChanged old s
    if b.enabled && b.serviceType == 0x02 then enableFieldPort (b.service - 1) b s else s

/-- The tests made when a block is enabled, in the order of R85. While the job has no buffer table yet there is no buffer to hold a handle
against, so tests 6 and 7 wait for the arm (log 34, DESIGN CHOICE). -/
def blockTests (j : Option Job) : List Nat :=
  match j with
  | some j => if j.buffers.isEmpty then [2, 3, 4, 8, 9, 10, 12] else [2, 3, 4, 6, 7, 8, 9, 10, 12]
  | none => [2, 3, 4, 6, 7, 8, 9, 10, 12]

/-- R71 on the joint fields of a channel block: their joints are those of its partition in the active Pattern that the block names.  While no such
Pattern is active the arm asks (R145, R260, log 65). -/
def jointTest (b : Block) : Run Unit := do
  let s ← get
  match s.pat.active with
  | some p =>
    if b.serviceType == 0x11 && p.sig.toNat == b.field 2 && b.field 1 < p.partitions then
      let part ← getPartition fwReq p (b.field 1)
      ensure (jointFieldsOk b part.joints.length) 0x0105
  | none => pure ()

/-- The tests that enable a block: of a channel block, its joint fields beside the ranges of test 3. -/
def enableTests (j : Option Job) (b : Block) : Run Unit :=
  (blockTests j).forM fun t => do
    checkOp (blockTest t j b)
    if t == 3 then jointTest b

/-- A SERVICE_TYPE of the table of R68. -/
def knownType (t : Nat) : Bool := (1 ≤ t && t ≤ 6) || jobLevel t

/-- Check a configuration block and put it in the place of the previous one.  R5 refuses a block of another version as a whole; for a block with
ENABLE 0, which R70 stores without a check, that is all that is tested: its type, LENGTH, place and fields stand as written (DEDUCED, log 67). -/
def configProg (a : List Nat) (h : Nat) : Run Unit := do
  let s ← get
  let place := s.jobById (headJob h).toNat
  if headJob h == 0xFFFF then ensure s.activeJob.isNone 0x0111
  else ensure (match place with | some (_, j) => j.state == .defined | none => false) 0x0111
  let job := if headJob h == 0xFFFF then none else place
  let block (ws : List Word) (on : Bool) : Block :=
    { serviceType := headType h, service := headService h, jobId := headJob h, enabled := on, words := ws }
  if bits h 96 1 == 0 then
    versionTest h
    let ws ← objectWords (argAddr a 1 / 32) (min (min (headLength h) (arg a 3)) 32)
    change (putBlock (job.map (·.1)) (block ws false))
  else
    headTest 2 h
    ensure (!knownType (headType h) || headLength h == blockLength (headType h)) 0x0113
    ensure (headLength h ≤ arg a 3) 0x0101
    ensure (headCount h != 0xFFFFFFFF) 0x0107
    ensure (knownType (headType h)) 0x0105
    let ws ← objectWords (argAddr a 1 / 32) (headLength h)
    let b := block ws true
    enableTests (job.map (·.2)) b
    change (putBlock (job.map (·.1)) b)

/-- CONFIG_WRITE (0x0105). -/
def configWriteCmd (a : List Nat) (s : State) : CmdResult := objectCmd a none true (configProg a) s

/-! ## NETWORK_LOAD (R297) -/

/-- NETWORK_LOAD (0x0601). -/
def networkLoadCmd (a : List Nat) (s : State) : CmdResult :=
  let id := BitVec.ofNat 16 (arg a 0)
  match definedJob a s with
  | none => refused 0x0112 s id
  | some (slot, j) =>
    let netId := bits (arg a 0) 16 6
    let handle := bits (arg a 1) 0 12
    completionOf (runProg (do
      match j.bufferSpan handle with
      | none => throw { reason := 0x010A }
      | some sp =>
        let n ← networkSteps netId sp
        change fun s => s.setJob slot fun x => { x with networks := x.networks.filter (·.netId != netId) ++ [n] }) s) id

/-! ## CHANNEL_GOAL and SERVICE_PRIORITY (R206, R489) -/

/-- The job that ARG0 names, where it is ARMED or RUNNING. -/
def liveJob (a : List Nat) (s : State) : Option (Nat × Job) :=
  match s.jobById (bits (arg a 0) 0 16) with
  | some (slot, j) => if j.state == .armed || j.state == .running then some (slot, j) else none
  | none => none

/-- R206 on a goal of a channel. -/
def goalProg (b : Block) (goal : Nat) : Run Unit := do
  let s ← get
  match s.pat.active with
  | none => throw { reason := 0x0403, detailA := 0xFFFF }
  | some p =>
    ensure (goal < p.nodes) 0x0403 0xFFFF
    let part ← getNodePartition fwReq p goal
    ensure (part == b.field 1) 0x0403 part
    change fun s => { s with chans := upd s.chans (b.field 0) fun c => { c with pendingGoal := some goal } }

/-- CHANNEL_GOAL (0x0108). -/
def channelGoalCmd (a : List Nat) (s : State) : CmdResult :=
  let id := BitVec.ofNat 16 (arg a 0)
  match liveJob a s with
  | none => refused 0x0112 s id
  | some (_, j) =>
    match j.channelBlock (bits (arg a 0) 16 4) with
    | none => refused 0x0105 s id
    | some b => completionOf (runProg (goalProg b (arg a 1)) s) id b.service

/-- A priority map of a service: at the next step 1, or at once in a job without CONTROL_CYCLE (R489). -/
def setPriority (service : Nat) (m : BitVec 24) (j : Job) : Job :=
  let old := (j.priorities.find? (·.service == service)).getD ⟨service, none, none⟩
  let new : PriorityMap := if (j.blockOf 0x10).isSome then { old with next := some m } else { old with current := some m, next := none }
  { j with priorities := j.priorities.filter (·.service != service) ++ [new] }

/-- SERVICE_PRIORITY (0x0109). -/
def servicePriorityCmd (a : List Nat) (s : State) : CmdResult :=
  let id := BitVec.ofNat 16 (arg a 0)
  let service := bits (arg a 0) 16 6
  match liveJob a s with
  | none => refused 0x0112 s id service
  | some (slot, j) =>
    if (j.service service).isNone then refused 0x0105 s id service
    else (s.setJob slot (setPriority service (BitVec.ofNat 24 (arg a 1))), { job := id, service := service })

end Sys2Proof.Machine
end

