-- ==== Sys2Proof/Machine/Arm.lean ====
section
/-!
DEFINITION. JOB_ARM and JOB_DISARM (R57, R65 to R67, R489): the consistency check over a whole job, the state that an arm leaves, the
CONFIG exchange with the peers (R467), and the end of a disarm.
-/

namespace Sys2Proof.Machine

open Sys2Proof

/-! ## What the check reads at arm (R84, R96, R145, R348) -/

/-- The sync records of a service: object number and record. -/
abbrev SyncRecords := List (Nat × Nat)

/-- What the check of a planning channel reads: its partition, the partition of START_NODE, and the robot model. -/
structure ChannelFacts where
  part : Partition
  startPart : Option Nat
  model : List Word

/-- The job under check, with what the check has read. -/
structure ArmCtx where
  slot : Nat
  job : Job
  syncs : List (Nat × SyncRecords)
  chans : List (Nat × ChannelFacts)

/-- The Shuttle as a requester (R407). -/
def shuttleReq : Requester := { num := 96 }

/-- Read the sync table of a service, where its handle names one that it owns and that is long enough. -/
def readSyncs (j : Job) (b : Block) : Run SyncRecords := do
  let blocks := setBitsOf 64 b.syncBlocks
  match j.buffers[bits (b.word 1) 144 16]? with
  | none => pure []
  | some x =>
    if blocks.isEmpty || x.owner != b.service || x.size < 128 * blocks.length then pure []
    else
      let ws ← getAll shuttleReq x.span.key (128 * blocks.length)
      pure ((List.range (1024 * blocks.length)).map fun i =>
        (1024 * nth blocks (i / 1024) 0 + i % 1024, lane32 (nth ws (i / 8) 0) (i % 8)))

/-- Read the facts of a planning channel, where the active Pattern has its partition. -/
def readChannel (j : Job) (b : Block) : Run (Option ChannelFacts) := do
  let s ← get
  match s.pat.active with
  | none => pure none
  | some p =>
    if p.partitions ≤ b.field 1 then pure none
    else
      let part ← getPartition fwReq p (b.field 1)
      let start ← if b.field 3 < p.nodes then (some <$> getNodePartition fwReq p (b.field 3)) else pure none
      let model ← match j.buffers[b.field 78]? with
        | some x => getAll fwReq x.span.key (min 35 x.size)
        | none => pure []
      pure (some ⟨part, start, model⟩)

/-- Read what the check of a job needs, in ascending service number. -/
def readArm (slot : Nat) (j : Job) : Run ArmCtx := do
  let syncs ← (j.enabledBlocks.filter fun b => b.syncBlocks != 0).mapM fun b => do
    let r ← readSyncs j b
    pure (b.service, r)
  let chans ← (j.enabledBlocks.filter (·.serviceType == 0x11)).mapM fun b => do
    let f ← readChannel j b
    pure (f.map fun x => (b.service, x))
  pure ⟨slot, j, syncs, chans.filterMap id⟩

/-- The sync records of a service. -/
def ArmCtx.syncsOf (c : ArmCtx) (service : Nat) : SyncRecords := ((c.syncs.find? (·.1 == service)).map (·.2)).getD []

/-- The record of a sync object of a service. -/
def ArmCtx.record (c : ArmCtx) (service obj : Nat) : Nat := (((c.syncsOf service).find? (·.1 == obj)).map (·.2)).getD 0

/-- The facts of a planning channel. -/
def ArmCtx.factsOf (c : ArmCtx) (service : Nat) : Option ChannelFacts := (c.chans.find? (·.1 == service)).map (·.2)

/-! ## Sync tables (R17, R96, R337) -/

/-- THRESHOLD, TRIGGER_LIST and TRIGGER_EN of a sync record. -/
def syncThreshold (r : Nat) : Nat := bits r 0 16
def syncList (r : Nat) : Nat := bits r 16 8
def syncTriggers (r : Nat) : Bool := r.testBit 24

/-- REL_SYNC, GOLD_SYNC, MAIN_LIST and GOLD_LIST of a sheet loop as R337 ranges them: THRESHOLD 1, REL_SYNC without a trigger, GOLD_SYNC triggering
GOLD_LIST, and both lists loaded lists of the service. -/
def ArmCtx.sheetSyncsOk (c : ArmCtx) (b : Block) : Bool :=
  let rel := c.record b.service (b.field 8)
  let gold := c.record b.service (b.field 9)
  syncThreshold rel == 1 && !syncTriggers rel && syncThreshold gold == 1 && syncTriggers gold && syncList gold == b.field 7 &&
    (c.job.list? b.service (b.field 6)).isSome && (c.job.list? b.service (b.field 7)).isSome

/-- Tests 2, 3 and 8 on the sync records of a service. -/
def syncTest (c : ArmCtx) (test : Nat) (b : Block) : Check Unit :=
  let rs := c.syncsOf b.service
  match test with
  | 2 => eachCheck (fun r => do
      need (syncThreshold r.2 != 0xFFFF) 0x0107
      need (syncThreshold r.2 != 0) 0x0108) rs
  | 3 => do
    eachCheck (fun r =>
      need (bits r.2 25 7 == 0 && (!syncTriggers r.2 || (c.job.list? b.service (syncList r.2)).isSome)) 0x0105) rs
    need (b.serviceType != 0x14 || c.sheetSyncsOk b) 0x0105
  | 8 =>
    if b.serviceType == 0x10 then
      let r := c.record b.service (b.field 3)
      need (syncThreshold r == 1 && syncTriggers r) 0x0114
    else .ok ()
  | _ => .ok ()

/-! ## Planning channels (R145, R260, R261, R348, R444) -/

/-- PITCH_UM and ORIGIN of the OCCUPANCY block are those of the Pattern. -/
def gridMatches (p : Pattern) (o : Block) : Bool :=
  o.field 0 == p.pitch && o.int 1 == p.originX && o.int 2 == p.originY && o.int 3 == p.originZ

/-- Setpoint points that T_B takes on a port, beyond the first (R444). -/
def pointCount (s : State) (j : Job) (port : Block) : Nat := ceilDiv (stopBranchTime s j) (1000 * port.field 9) + 1

/-- A test of a planning channel at arm. -/
def channelTest (c : ArmCtx) (test : Nat) (b : Block) (s : State) : Check Unit :=
  match test with
  | 3 => match s.pat.active with
    | none => .ok ()
    | some p => do
      need (b.field 1 < p.partitions) 0x0105
      match c.factsOf b.service with
      | some f => need (f.startPart == some (b.field 1) && jointFieldsOk b f.part.joints.length) 0x0105
      | none => .ok ()
  | 8 => do
    match c.factsOf b.service with
    | some f =>
      need (f.part.modelSig.toNat == b.field 79) 0x0114
      need (modelCheck f.model f.part.joints.length (b.field 79)) 0x0114
      need (b.field 70 < b.field 12 && limitsOk b f.part.joints) 0x0114
    | none => .ok ()
    match s.pat.active, c.job.blockOf 0x12 with
    | some p, some o => need (gridMatches p o) 0x0114
    | _, _ => .ok ()
    match s.driveOf (b.field 0) with
    | some (n, _) => match s.fieldBlock n with
      | some port => need (pointCount s c.job port ≤ 16) 0x0114
      | none => .ok ()
    | none => .ok ()
  | 9 => do
    match s.pat.active with
    | some p => need (p.sig.toNat == b.field 2) 0x0304
    | none => refuse 0x0304
    need (s.driveOf (b.field 0)).isSome 0x010E (b.field 0)
  | _ => .ok ()

/-! ## The sheet loop and the cameras (R325, R444) -/

/-- A test of the sheet loop at arm: its CORRECTION node and the fragments of its record. -/
def sheetTest (test : Nat) (b : Block) (s : State) : Check Unit :=
  if b.field 10 == 4 then .ok () else
  match s.fieldBlock (b.field 10) with
  | none => need (test != 9) 0x010E
  | some port =>
    match test with
    | 8 => need (32 * recordWords b ≤ 16 * port.field 11) 0x0114
    | 9 => need (nodeWith port fun d => d.role == 2).isSome 0x010E
    | _ => .ok ()

/-- The enabled CAMERA_PORT blocks whose consumer is a job, in port order. -/
def State.camerasOf (s : State) (j : Job) : List Block :=
  (List.range 4).filterMap fun n => (s.camera n).filter fun b => b.field 11 == j.id.toNat

/-- Frame buffers that the ring of a camera port holds: four where the port carries the golden frame (R327). -/
def ringBuffers (j : Job) (b : Block) : Nat := if j.goldenPort (b.service - 8) then 4 else b.field 6

/-- A test of a camera port at the arm of its consumer: the ring's handle, owner, length and place. -/
def cameraTest (j : Job) (test : Nat) (b : Block) : Check Unit :=
  match test with
  | 6 => do
    let x ← needSome j.buffers[b.field 13]? 0x010A
    need (x.owner == b.field 12) 0x010B
  | 7 => need (ringBuffers j b * frameWords b ≤ ((j.buffers[b.field 13]?).map (·.size)).getD 0) 0x0101
  | 8 => need (b.field 14 < 16 || j.bufferIn (b.field 13) false) 0x0114
  | _ => .ok ()

/-! ## The whole job (R66, R85, R93) -/

/-- The valid entries of a launch table: SERVICE_ID and list. -/
def launchNames (j : Job) : List (Nat × Nat) :=
  (List.range 16).filterMap fun i =>
    let v := launchEntry j.launch i
    if v.testBit 15 then some (bits v 8 6, bits v 0 8) else none

/-- A test that concerns the job as one object. -/
def jobTest (c : ArmCtx) (test : Nat) (s : State) : Check Unit :=
  let j := c.job
  match test with
  | 3 => eachCheck (fun n => need (j.list? n.1 n.2).isSome 0x0105) (launchNames j)
  | 6 => placeBuffers s c.slot [] j.buffers
  | 8 => do
    need ((launchNames j).eraseDups.length == (launchNames j).length) 0x0114
    match s.devBlock 7 with
    | some b => need ((j.blockOf 0x10).isNone || s.belowPeriod j (b.field 1)) 0x0114
    | none => .ok ()
  | 9 => need ((j.blockOf 0x10).isNone || (s.devBlock 7).isSome) 0x010E
  | _ => .ok ()

/-- The lists of a job in ascending service and number. -/
def Job.sortedLists (j : Job) : List InstrList :=
  sortBy (fun a b => a.service < b.service || (a.service == b.service && a.number < b.number)) j.lists

/-- R214 at arm where the list's service has no enabled block, which counts as not privileged: the lowest DARN entry. -/
def darnTest : Nat → List Entry → Check Unit
  | _, [] => .ok ()
  | i, e :: t => if Entry.op e == 0x0402 then .error { reason := 0x0405, entry := i } else darnTest (i + 1) t

/-- One test over a list of the job.  Of a list whose service has no enabled block the rules of R78 that name a block fail as R214 (test 3) and as a
dependency that is not enabled (test 9, log 45). -/
def armListTest (c : ArmCtx) (test : Nat) (l : InstrList) : Run Unit := do
  match c.job.service l.service with
  | none =>
    if test == 3 then checkOp fun _ => darnTest 0 l.entries
    ensure (test != 9) 0x010E l.number
  | some b =>
    let ctx : ListCtx :=
      { job := c.job, service := l.service, serviceType := b.serviceType, number := l.number, atArm := true, entries := l.entries }
    entriesTest ctx test 0 l.entries

/-- One test over the whole job: services, the job and its table, the device-level blocks, and the lists. -/
def armTest (c : ArmCtx) (test : Nat) : Run Unit := do
  c.job.enabledBlocks.forM fun b => do
    checkOp (blockTest test (some c.job) b)
    checkOp fun _ => syncTest c test b
    if b.serviceType == 0x11 then checkOp (channelTest c test b)
    if b.serviceType == 0x14 then checkOp (sheetTest test b)
  checkOp (jobTest c test)
  let s ← get
  (s.camerasOf c.job).forM fun b => do
    checkOp fun _ => cameraTest c.job test b
    if test == 12 then checkOp fun s => do
      eachCheck (claimFree s) (blockClaims b)
      goldenTest s b
  c.job.sortedLists.forM (armListTest c test)

/-! ## The state that an arm leaves (R57, R67, R96, R169, R204, R343) -/

/-- The sync objects of a job as the Shuttle copies them, counts zero (R96). -/
def ArmCtx.syncObjects (c : ArmCtx) : List SyncObj :=
  c.syncs.flatMap fun (service, rs) => rs.map fun (obj, r) =>
    { obj := obj, service := service, count := 0, threshold := syncThreshold r, list := syncList r, trigger := syncTriggers r }

/-- The channel of an enabled block at arm: at rest at START_NODE, which is its goal. -/
def armChannel (b : Block) : Channel :=
  { goal := b.field 3, history := [⟨0, .restNode (b.field 3)⟩], enabled := true }

/-- The channels at arm; whether the most recent release of a channel was a hold stands (R368). -/
def armChannels (j : Job) (old : List Channel) : List Channel :=
  (List.range 16).map fun n =>
    let c : Channel := match j.channelBlock n with | some b => armChannel b | none => {}
    { c with lastHold := (nth old n {}).lastHold }

/-- The Tracer at arm: no gate, no slot valid, counters cleared; the next apply is the first. -/
def armTracer (t : Tracer) : Tracer := { fault := t.fault, lastDuration := t.lastDuration, rotatedAt := t.rotatedAt, firstApply := true }

/-- Frame Intake at arm: counters cleared. -/
def armFrames (f : FrameCtl) : FrameCtl :=
  { f with ports := f.ports.map fun p => { p with
      accepted := 0, dropped := 0, crcErrors := 0, sizeErrors := 0, maxExpiries := 0, strangers := 0, headerCorrected := 0,
      frozen := 0, repeated := 0, skips := 0, stale := 0 } }

/-- The Seam at arm: its counters and SM_HOLD_COUNT cleared. -/
def armSeam (m : Safety) : Safety :=
  { m with stitches := 0, dropsEarly := 0, dropsLate := 0, walks0901 := 0, walks0902 := 0, verdictBlocked := 0, verdictBudget := 0,
           holdCount := 0, walk := none }

/-- The sheet loop at arm (R343). -/
def armSheet (j : Job) : SheetLoop :=
  match j.sheetBlock with
  | some b => { sheetsSince := b.field 18, frozen := true }
  | none => {}

/-- Everything of the engines that an arm clears or sets. -/
def armEngines (j : Job) (syncs : List SyncObj) (s : State) : State :=
  { s with
    shu := { nextItem := s.shu.nextItem, gets := s.shu.gets, kernels := s.shu.kernels, syncs := syncs }
    trc := armTracer s.trc
    chans := armChannels j s.chans
    pse := {}
    se := { slots := s.se.slots, resumable := s.se.resumable }
    te := { excluded := s.te.excluded }
    tks := {}
    fi := armFrames s.fi
    sheet := armSheet j
    sm := armSeam s.sm
    pl := { s.pl with gathers := [], ranGathers := [] }
    occ := {} }

/-- The memory and the delay entry that an arm writes. -/
def armObjects (slot : Nat) (j : Job) (s : State) : State :=
  let s := match occCtxOf j with | some o => armOccupancy o s | none => s
  let s := j.channelBlocks.foldl (fun s b => writeChState j (b.field 0) s) s
  match j.sheetBlock with
  | some b => insertRelease slot b s
  | none => s

/-- The blocks whose claims an arm makes again where they have been released: those of the job, and the device-level blocks that claim for a service
of the job (R86). -/
def State.armBlocks (s : State) (j : Job) : List Block := j.enabledBlocks ++ (s.lineBlock.toList ++ s.camerasOf j)

/-- The claims of an arm. -/
def armClaims (j : Job) (s : State) : State := (s.armBlocks j).foldl (fun s b => takeClaims b s) s

/-- The job becomes ARMED. -/
def armAccept (slot : Nat) (j : Job) (syncs : List SyncObj) (launch : Nat) (s : State) : State :=
  let s := s.setJob slot fun j => { j with state := .armed, launchAt := launch, priorities := [], triggered := [] }
  armObjects slot j (armEngines j syncs (armClaims j s))

/-- The last test of an arm: its launch count lies at least 100 µs ahead (R57). -/
def launchTest (launch : Nat) (s : State) : Check Unit := need (launch == 0 || s.now + 100000 ≤ launch) 0x0B4F

/-! ## The CONFIG exchange (R174, R467) -/

/-- The links of a job's PEER_MASK. -/
def Job.peerLinks (j : Job) : List Nat := match j.blockOf 0x12 with | some b => setBitsOf 7 (b.field 11) | none => []

/-- Send CONFIG on every link of PEER_MASK. -/
def sendConfigs (j : Job) (s : State) : State :=
  match occCtxOf j with
  | none => s
  | some o =>
    let sig := match s.pat.active with | some p => p.sig | none => 0
    j.peerLinks.foldl (fun s n => sendMessage n 6 0 0 (configBody o sig) s) s

/-- The exchange is over: what the peers of the job reported is let go. -/
def clearConfigs (j : Job) (s : State) : State := j.peerLinks.foldl (fun s n => setPeer n (fun p => { p with config := none }) s) s

/-- The peers report the same SLICE_PERIOD, SLICE_PHASE and PITCH_UM. -/
def configsAgree (s : State) (j : Job) : Bool :=
  match occCtxOf j with
  | none => true
  | some o => j.peerLinks.all fun n => match (s.peer n).config with
    | some p => p.slicePeriod == o.period && p.slicePhase == o.phase && p.pitch == o.block.field 0
    | none => false

/-- Every peer of the job has reported. -/
def configsIn (s : State) (j : Job) : Bool := j.peerLinks.all fun n => (s.peer n).config.isSome

/-- The end of an arm whose peers have all reported, as a program; a Safe-Hold entered meanwhile refuses it (R364). -/
def finishArmProg (slot : Nat) (j : Job) (syncs : List SyncObj) (launch : Nat) : Run Unit := do
  let s ← get
  change (clearConfigs j)
  ensure (configsAgree s j) 0x0114
  ensure (s.smState != 2) 0x0906
  checkOp (launchTest launch)
  change (armAccept slot j syncs launch)

/-- JOB_ARM up to the CONFIG exchange: the check of the whole job.  True: it waits for its peers. -/
def armProg (mbx slot : Nat) (j : Job) (launch : Nat) : Run Bool := do
  let s ← get
  ensure (j.state == .defined && s.activeJob.isNone && !s.memCtl.maintenance) 0x0112
  ensure (s.smState != 2) 0x0906
  let c ← readArm slot j
  (List.range 13).forM fun t => armTest c t
  change (sendConfigs j)
  let s ← get
  if configsIn s j then
    finishArmProg slot j c.syncObjects launch
    pure false
  else
    change fun s => { s with arming := some ⟨mbx, slot, launch, s.now, c.syncObjects⟩ }
    pure true

/-- JOB_ARM (0x0106); no completion while it waits for its peers. -/
def jobArmCmd (mbx : Nat) (a : List Nat) (s : State) : State × Option Completion :=
  let id := BitVec.ofNat 16 (arg a 0)
  match s.jobById id.toNat with
  | none => (s, some { status := .refused, reason := 0x0112, job := id })
  | some (slot, j) => match runProg (armProg mbx slot j (argAddr a 1)) s with
    | (s, .ok true) => (s, none)
    | (s, .ok false) => (s, some { job := id })
    | (s, .error f) => (s, some (f.completion id))

/-- The arm that waits ends, once every peer has reported. -/
def finishArm (s : State) : State × Option (Nat × Completion) :=
  match s.arming with
  | none => (s, none)
  | some a =>
    match s.jobIn a.slot with
    | none => (s, none)
    | some j =>
      if !configsIn s j then (s, none)
      else
        match runProg (finishArmProg a.slot j a.syncs a.launch) { s with arming := none } with
        | (s, .ok _) => (s, some (a.mbx, { job := j.id }))
        | (s, .error f) => (s, some (a.mbx, f.completion j.id))

/-- 10 ms without CONFIG from a link of the arm that waits. -/
def armTimeout (link : Nat) (s : State) : State × Option (Nat × Completion) :=
  match s.arming with
  | none => (s, none)
  | some x =>
    match s.jobIn x.slot with
    | none => (s, none)
    | some j =>
      if j.peerLinks.contains link && (s.peer link).config.isNone && x.since + 10000000 ≤ s.now then
        (clearConfigs j { s with arming := none }, some (x.mbx, { status := .refused, reason := 0x010E, job := j.id, a := link }))
      else (s, none)

/-! ## JOB_DISARM (R67, R112, R361) -/

/-- The holds of a disarm, with HOLD_REASON 0x0207, in the latest cycle or the one after it. -/
def disarmHolds (j : Job) (s : State) : State :=
  if s.shu.cycles.isEmpty then s
  else j.channelBlocks.foldl (fun s b =>
    let now := s.cycleOf s.latestTag
    let cyc := if (s.chan (b.field 0)).released.contains now.tag then s.nextCycle j else now
    (holdChannel j b cyc 0x0207 false s).1) s

/-- What a disarm ends at once: delay entries and undispatched items of the job; no trigger starts a list any more. -/
def disarmWork (slot : Nat) (s : State) : State :=
  let s := abortDelays (fun _ e => e.owner.slot == some slot) 0x0207 s
  let s := cancelWhere (fun it => it.slot == slot) (done .aborted 0x0207) s
  { s with shu.triggerings := [], shu.signals := s.shu.signals.filter (·.item.isSome) }

/-- The last work item of a DISARMING job is complete: the job is DEFINED. -/
def State.disarmed? (s : State) : Option Nat :=
  match s.activeJob with
  | some (slot, j) => if j.state == .disarming && s.shu.items.isEmpty then some slot else none
  | none => none

/-- JOB_DISARM of an ARMED or RUNNING job. -/
def disarmJob (slot : Nat) (j : Job) (s : State) : State :=
  let s := if j.state == .running then disarmHolds j s else s
  let s := s.setJob slot fun j => { j with state := if j.state == .running then .disarming else .defined }
  let s := disarmWork slot s
  match s.disarmed? with
  | some slot => s.setJob slot fun j => { j with state := .defined }
  | none => s

end Sys2Proof.Machine
end

