-- ==== Sys2Proof/Machine/Firmware.lean ====
section
/-!
DEFINITION. The firmware: FW_LOAD (R431 to R433), the end of a load, ATTEST (R439, R440) and TRACE_CONTROL (R429).
-/

namespace Sys2Proof.Machine

open Sys2Proof

/-! ## The image (R431) -/

/-- OFFSET and LENGTH of section i, 1 or 2. -/
def fwSection (h : List Word) (i : Nat) : Nat × Nat := (headBytes h (4 + 12 * i) 8, headBytes h (12 + 12 * i) 4)

/-- OFFSET and LENGTH of section i: from word 181 on, 1 to `limit` words. -/
def fwSectionField (h : List Word) (i limit : Nat) : Check Unit := do
  need (181 ≤ headBytes h (4 + 12 * i) 8) 0x0105 (4 + 12 * i)
  countField h (12 + 12 * i) 4 limit

/-- Step 2 of R432, after R80 and R82 on every field; `len` is the length in words that the command names. -/
def fwHeader (h : List Word) (len : Nat) : Check Unit := do
  rangeField h 0 4 0x46544631 0x46544631
  rangeField h 4 2 1 1
  need (headBytes h 6 1 == 1) 0x0103 6
  zeroField h 7 1
  rangeField h 12 4 0 255
  fwSectionField h 1 57344
  fwSectionField h 2 98304
  zeroField h 40 24
  countField h 64 8 155829
  need (181 ≤ headBytes h 64 8) 0x0105 64
  zeroField h 72 184
  zeroField h 320 192
  eachCheck (fun i => need ((fwSection h i).1 + (fwSection h i).2 ≤ headBytes h 64 8) 0x0101 (4 + 12 * i)) [1, 2]
  need (headBytes h 64 8 ≤ len) 0x0101 64

/-- The firmware-key digest; no image loads in BLANK and SCRAPPED (R507). -/
def State.firmwareKey (s : State) : Option (BitVec 512) :=
  match s.lcc.fuses.lifeCycle with
  | .blank | .scrapped => none
  | .manufacture | .provisioned | .field | .returned => s.lcc.fuses.fwKey

/-- Step 3 of R432. -/
def fwTrust (h block : List Word) (s : State) : Check Unit := do
  match signatureCheck s.firmwareKey h block with
  | .ok _ => .ok ()
  | .error f => .error { f with reason := 0x0C01 }
  need (s.lcc.fuses.svnMin ≤ headBytes h 12 4) 0x0C01 3

/-! ## FW_LOAD (R432) -/

/-- The image lies in BSP regions 4 to 95 that are FREE. -/
def fwPlaced (s : State) (k len : Nat) : Bool := k + len ≤ bspWords && insideRegions s 0 100 k (k + len)

/-- The device is back in the boot ROM, with every job slot empty. -/
def toBootRom (s : State) : State :=
  { s with fw.stage := .bootRom, fw.ready := 0, fw.version := 0, fw.digest := 0, fw.svn := 0, fw.traceMask := 0,
           jobs := [none, none, none, none], claims := s.claims.filter fun c => c.owner.job == 0xFFFF,
           shu.kernels := [] }

/-- Step 5: the sections are copied into the Control Complex memory and into BSP regions 0 to 2. -/
def fwCopy (k : Nat) (h : List Word) : Run Unit := do
  let sec (i : Nat) : Nat × Nat := fwSection h i
  let cc ← stateOp (readWords fwReq (k + (sec 1).1) (sec 1).2)
  let ker ← stateOp (readWords fwReq (k + (sec 2).1) (sec 2).2)
  if anyBad cc || anyBad ker then
    change toBootRom
    poisoned
  putWords (memKey memCc 0 0) (gotData cc)
  putWords 0 (gotData ker)

/-- Step 6 begins: all four cores start on the new image, one that was held as well (assumption log 78); the commands that wait run in acceptance
order (R433), and what the Work Cores hold of the old library is void. -/
def fwStart (h : List Word) (s : State) : State :=
  { s with
    fw.stage := if s.fw.stage == .bootRom then .loading else .updating
    fw.ready := 0
    fw.held := 0
    mbx := s.accepted.foldl (fun l n => upd l n fun b => { b with waited := true }) s.mbx
    fw.version := BitVec.ofNat 32 (headBytes h 8 4)
    fw.digest := BitVec.ofNat 512 (headBytes h 256 64)
    fw.svn := headBytes h 12 4
    fw.traceMask := if s.fw.stage == .bootRom then 0 else s.fw.traceMask
    shu.kernels := [] }

/-- FW_LOAD up to the start of the cores. -/
def fwProg (a : List Nat) : Run Unit := do
  let k := argAddr a 0 / 32
  ensure (arg a 2 != 0xFFFFFFFF) 0x0107
  ensure (arg a 2 != 0) 0x0108
  ensure (argAddr a 0 % 32 == 0) 0x0109
  let s ← get
  ensure (fwPlaced s k (arg a 2)) 0x0116
  ensure s.activeJob.isNone 0x0C03
  let h ← getAll fwReq k 16
  checkOp fun _ => fwHeader h (arg a 2)
  let block ← getAll fwReq (k + 16) 165
  checkOp (fwTrust h block)
  let secs ← [1, 2].mapM fun i => getAll fwReq (k + (fwSection h i).1) (fwSection h i).2
  ensure (ofBytes (imageDigest secs) == headBytes h 256 64) 0x0C02
  fwCopy k h
  change (fwStart h)

/-- FW_LOAD (0x0C01): no completion while the cores start. -/
def fwLoadCmd (a : List Nat) (s : State) : State × Option Completion :=
  match runProg (fwProg a) s with
  | (s, .ok _) => (s, none)
  | (s, .error f) => ({ s with fw.lastFail := BitVec.ofNat 16 f.reason }, some f.completion)

/-- The repairs that found no field fuse at the wake are applied again, for as long as spares remain (R412). -/
def restoreRepairs (s : State) : State :=
  s.lcc.commitQueue.foldl (fun s r => match softRepair { r with commit := false } s with | .ok t => t | .error _ => s) s

/-- All four cores are ready (R432). -/
def State.coresReady (s : State) : Bool := s.fw.ready == 0xF#4

/-- A record that the firmware logs: a trace point writes only while its bit is set in the trace mask (R428, R429). -/
def writeNote (x : Config.FirmwareNote) (s : State) : State :=
  let put (kind level : Nat) : State :=
    pushLq (logWord kind x.core.val level x.message.toNat s.now x.arg0.toNat x.arg1.toNat x.arg2.toNat x.arg3.toNat) x.core.val s
  match x.point with
  | none => put 0 x.level.val
  | some p => if s.fw.traceMask.getLsbD p.val then put 1 0 else s

/-- The firmware logs what it has to log, on a core that runs. -/
def noteTick (s : State) : State :=
  match s.note with
  | some x => if s.fw.stage == .running && s.fw.ready.getLsbD x.core.val then writeNote x s else s
  | none => s

/-- The new firmware runs. -/
def fwRunning (s : State) : State :=
  let first := s.fw.stage == .loading
  let s := { s with fw.stage := .running }
  if first then restoreRepairs s else s

/-! ## ATTEST (R439, R440) -/

/-- A field of the report body: byte offset, bytes, value. -/
def bodyField (offset len v : Nat) : Nat := at_ v (8 * offset) (8 * len)

/-- The body of the report, 512 bytes; `reports` counts this one. -/
def reportBody (a : List Nat) (reports : Nat) (s : State) : List Byte :=
  let nonce := (List.range 8).foldl (fun n i => n + bodyField (8 + 4 * i) 4 (arg a i)) 0
  let identity := ofBytes (shake64 (toBytes (Config.identityKey s.lcc.fuses.secret).toNat 1952))
  let sig := match s.pat.active with | some p => p.sig.toNat | none => 0
  toBytes (bodyField 0 4 0x46544131 + bodyField 4 2 1 + bodyField 6 1 s.lcc.fuses.lifeCycle.code + bodyField 7 1 s.smState + nonce +
    bodyField 40 64 identity + bodyField 104 64 s.fw.digest.toNat + bodyField 168 4 s.fw.version.toNat + bodyField 172 1 s.fw.svn +
    bodyField 176 8 sig + bodyField 184 8 s.now + bodyField 192 6 s.line.m.toNat + bodyField 200 4 reports) 512

/-- ATTEST has the identity key to sign with. -/
def State.mayAttest (s : State) : Bool :=
  (s.lcc.fuses.lifeCycle == .provisioned || s.lcc.fuses.lifeCycle == .field) && !s.lcc.wipeRunning && s.lcc.tamper == 0

/-- ATTEST (0x0C03): the report of 3,840 bytes in the payload area. -/
def attestCmd (mbx : Nat) (a : List Nat) (s : State) : CmdResult :=
  if !s.mayAttest then refused 0x0C08 s
  else
    let n := satAdd 4294967295 s.fw.reports 1
    let body := reportBody a n s
    let sign := toBytes (Config.mlDsaSign s.lcc.fuses.secret body).toNat 3309
    let s := { s with fw.reports := n }
    (writeWords (payloadBase mbx) (bytesWords 120 (body ++ sign ++ List.replicate 19 0)) s, {})

/-- TRACE_CONTROL (0x0C02). -/
def traceControlCmd (a : List Nat) (s : State) : CmdResult := ({ s with fw.traceMask := BitVec.ofNat 32 (arg a 0) }, {})

end Sys2Proof.Machine
end

