-- ==== Sys2Proof/Machine/Power.lean ====
section
/-!
DEFINITION. Power, wake and life cycle (R499 to R511): loss of power, the wake, POWER_STATE, the fuse burns of KEY_PROVISION and
LIFECYCLE_SET, and the Thimble wipe.
-/

namespace Sys2Proof.Machine

open Sys2Proof

/-! ## Loss of power (R499, R501) -/

/-- The Fuse Map as a loss of power leaves it: a life-cycle state that is burned stands, a burn in progress does not. -/
def State.fusesAtLoss (s : State) : FuseMap :=
  match s.lcc.transition with
  | some (_, next) => s.lcc.fuses.withLife next
  | none => s.lcc.fuses

/-- The compute die as a loss of power leaves it: only the Fuse Map stands, and the commit queue while VDD_AON stands (R412).  The
model's own queue and counter of free values stand too. -/
def powerDown (aonLost : Bool) (s : State) : State :=
  { grade := s.grade
    porstLow := s.porstLow
    lcc := { fuses := s.fusesAtLoss, commitQueue := if aonLost then [] else s.lcc.commitQueue }
    freeCount := s.freeCount
    pending := s.pending }

/-- The LCC opens the switches 1 ms after POWER_STATE Off completed (R501). -/
def offSwitch (s : State) : State :=
  match s.lcc.offAt with
  | some t => if t ≤ s.now then powerDown false s else s
  | none => s

/-! ## The wake (R412, R503) -/

/-- The life cycles in which the identity key is derived. -/
def LifeCycle.hasIdentity : LifeCycle → Bool
  | .manufacture | .provisioned | .field => true
  | .blank | .returned | .scrapped => false

/-- Step 3: a committed repair is burned into the next free field-fuse entry; without one it stays in the queue. -/
def burnRepair (s : State) (r : Repair) : State :=
  if s.lcc.fuses.fieldRepairs.length < 256 then
    { s with lcc.fuses.fieldRepairs := s.lcc.fuses.fieldRepairs ++ [r] }
  else raiseAlarm 0x0A06 0 0 { s with lcc.commitQueue := s.lcc.commitQueue ++ [r] }

/-- The life cycles in which TEST_MODE counts (R500; assumption log 101). -/
def LifeCycle.factoryTests : LifeCycle → Bool
  | .blank | .manufacture => true
  | .provisioned | .field | .returned | .scrapped => false

/-- What the test access port offers (R500, R507). -/
inductive TapFunction where
  | boundaryScan | factoryTest | fullDebug | bypass | idcode | statusReads
  deriving DecidableEq, Repr

/-- The functions of the test access port with PORST_N high, by life-cycle state (R507). -/
def LifeCycle.tap : LifeCycle → List TapFunction
  | .blank => [.factoryTest]
  | .manufacture | .returned => [.fullDebug]
  | .provisioned => [.bypass, .idcode, .statusReads]
  | .field | .scrapped => [.bypass, .idcode]

/-- The functions that the test access port offers: boundary scan in every life-cycle state while PORST_N is low (R500). -/
def State.tapOffers (s : State) : List TapFunction := if s.porstLow then [.boundaryScan] else s.lcc.fuses.lifeCycle.tap

/-- The wake from Off, with the board position, the installed GiB and the level of TEST_MODE that it finds (R380, R459, R500). -/
def wakeUp (bpos gib testMode : Nat) (s : State) : State :=
  if s.power != .off then s
  else
    let fresh : State :=
      { grade := s.grade
        power := .on
        porstLow := false
        boardPos := bpos
        memCtl := { clearDone := true, regions := gib }
        link := { modules := 0b11 }
        lcc := { fuses := s.lcc.fuses, tamperArmed := true, identity := s.lcc.fuses.lifeCycle.hasIdentity,
                 factoryTest := testMode != 0 && s.lcc.fuses.lifeCycle.factoryTests }
        freeCount := s.freeCount
        pending := s.pending }
    s.lcc.commitQueue.foldl burnRepair fresh

/-! ## POWER_STATE (R501) -/

/-- POWER_STATE (0x0C04).  In Idle no slice of the self-test runs: one that runs at the entry ends there without a verdict (R502).  The switches open
1 ms after the first command for Off (R501). -/
def powerStateCmd (a : List Nat) (s : State) : CmdResult :=
  if s.activeJob.isSome then refused 0x0112 s
  else match bits (arg a 0) 0 2 with
  | 0 => ({ s with power := .on }, {})
  | 1 =>
    if s.power == .idle then (s, {})
    else ({ s with power := .idle, lcc.idleEntries := satAdd 65535 s.lcc.idleEntries 1, sm.running := [] }, {})
  | 2 => ({ s with lcc.offAt := some (s.lcc.offAt.getD (s.now + 1000000)) }, {})
  | _ => refused 0x0105 s

/-! ## Fuse burns (R505 to R509) -/

/-- A burn begins for a mailbox; it ends at the next tick (assumption log 33). -/
def startBurn (mbx : Nat) (t : BurnTarget) (s : State) : State :=
  { s with lcc.burn := some { mbx := some mbx, target := t, endAt := s.now + 1 } }

/-- The digest in the first 64 bytes of the payload area. -/
def payloadDigest (mbx : Nat) : Run (BitVec 512) := do
  let ws ← getAll fwReq (payloadBase mbx) 2
  pure (BitVec.ofNat 512 (spanBits ws 0 512))

/-- What the item of a target of KEY_PROVISION holds. -/
def State.keyAt (s : State) (target : Nat) : Option (BitVec 512) :=
  if target == 0 then s.lcc.fuses.fwKey else nth s.lcc.fuses.patternKeys (target - 1) none

/-- A life cycle in which a target may be provisioned. -/
def mayProvision (c : LifeCycle) (target : Nat) : Bool :=
  c == .manufacture || (target != 0 && (c == .provisioned || c == .field))

/-- KEY_PROVISION up to its burn (R506). -/
def provisionProg (mbx : Nat) (a : List Nat) : Run Unit := do
  let target := bits (arg a 0) 0 4
  let svn := bits (arg a 1) 0 8
  let s ← get
  ensure s.activeJob.isNone 0x0C07 4
  ensure (5 < target || mayProvision s.lcc.fuses.lifeCycle target) 0x0C07 1
  ensure (target ≤ 5) 0x0105
  if target == 5 then
    ensure (s.lcc.fuses.svnMin < svn) 0x0105
    change (startBurn mbx (.svn svn))
  else
    let d ← payloadDigest mbx
    ensure (d != 0 && d != BitVec.allOnes 512) 0x0105
    ensure (match s.keyAt target with | some k => k == d | none => true) 0x0C07 2
    change (startBurn mbx (if target == 0 then .fwKey d else .patternKey (target - 1) d))

/-- KEY_PROVISION (0x0C06): no completion while its burn runs. -/
def keyProvisionCmd (mbx : Nat) (a : List Nat) (s : State) : State × Option Completion :=
  match runProg (provisionProg mbx a) s with
  | (s, .ok _) => (s, none)
  | (s, .error f) => (s, some f.completion)

/-- The transitions that LIFECYCLE_SET makes (R508). -/
def transitionOf (c : LifeCycle) (target : Nat) : Option LifeCycle :=
  match c, target with
  | .manufacture, 2 => some .provisioned
  | .provisioned, 3 => some .field
  | .provisioned, 4 => some .returned
  | .field, 4 => some .returned
  | .provisioned, 5 => some .scrapped
  | .field, 5 => some .scrapped
  | .returned, 5 => some .scrapped
  | _, _ => none

/-- The condition of a transition (R508). -/
def transitionReady (f : FuseMap) (next : LifeCycle) : Bool :=
  match next with
  | .provisioned => f.fwKey.isSome && f.returnKey.isSome
  | .field => f.patternKeys.any (·.isSome)
  | .blank | .manufacture | .returned | .scrapped => true

/-- The authorisation of R509 in the payload area. -/
def returnAuthorised (mbx : Nat) : Run Bool := do
  let ws ← getAll fwReq (payloadBase mbx) 165
  let s ← get
  let bs := wordsBytes ws
  let pub := bs.take 1952
  let message := toBytes s.lcc.fuses.serial.toNat 8 ++ [4#8] ++ List.replicate 7 0
  pure (s.lcc.fuses.returnKey == some (BitVec.ofNat 512 (ofBytes (shake64 pub))) &&
    mlDsaVerify pub message ((bs.drop 1952).take 3309))

/-- LIFECYCLE_SET up to its burn (R508). -/
def lifecycleProg (mbx : Nat) (a : List Nat) : Run Unit := do
  let s ← get
  match transitionOf s.lcc.fuses.lifeCycle (bits (arg a 0) 0 3) with
  | none => throw { reason := 0x0C07, detailA := 1 }
  | some next =>
    ensure (transitionReady s.lcc.fuses next) 0x0C07 2
    if next == .returned then
      let ok ← returnAuthorised mbx
      ensure ok 0x0C07 3
    ensure s.activeJob.isNone 0x0C07 4
    change (startBurn mbx (.lifeCycle next))

/-- LIFECYCLE_SET (0x0C05): no completion while its burn and the Thimble wipe run. -/
def lifecycleSetCmd (mbx : Nat) (a : List Nat) (s : State) : State × Option Completion :=
  match runProg (lifecycleProg mbx a) s with
  | (s, .ok _) => (s, none)
  | (s, .error f) => (s, some f.completion)

/-- The wipe of the Thimble writes zero into every word (R395); an armed flip takes the first write or the one to its word (R408). -/
def zeroThimble (s : State) : State :=
  let s := { s with mem := s.mem.filter fun c => decide (c.1 < thimbleBase) || decide (lpddrBase ≤ c.1) }
  match s.memCtl.flip with
  | some f => if f.memory == memThimble then writeWord (f.addr.getD thimbleBase) 0 s else s
  | none => s

/-- A wipe of the Thimble starts; its reads return zero while it runs (R395). -/
def startWipe (s : State) : State :=
  let t := zeroThimble s
  { s with mem := t.mem, memCtl := t.memCtl, lcc.wipeRunning := true, lcc.identity := false }

/-- A burn has ended with every bit read back as written: the item is in force, or the wipe of a transition starts (R505 to R508).  A fuse
is never cleared: an item that holds a digest keeps it, and the fuses of the minimum SVN only grow in number (R505). -/
def burned (b : Burn) (s : State) : State :=
  let s := { s with lcc.burn := none }
  match b.target with
  | .lifeCycle next => startWipe { s with lcc.transition := some (b.mbx, next) }
  | .fwKey d => { s with lcc.fuses.fwKey := s.lcc.fuses.fwKey.or (some d) }
  | .patternKey n d => { s with lcc.fuses.patternKeys := upd s.lcc.fuses.patternKeys n fun k => k.or (some d) }
  | .svn v => { s with lcc.fuses.svnMin := max s.lcc.fuses.svnMin v }

/-- The burn in progress, when its time has come. -/
def State.burnDone (s : State) : Option Burn := s.lcc.burn.filter fun b => b.endAt ≤ s.now

/-- The Fuse Map once a Thimble wipe that runs has ended: the state that a transition has burned comes into force (R508). -/
def State.fusesAfterWipe (s : State) : FuseMap :=
  match s.lcc.wipeRunning, s.lcc.transition with
  | true, some (_, next) => s.lcc.fuses.withLife next
  | _, _ => s.lcc.fuses

/-- The Fuse Map once the burn whose time has come has ended. -/
def State.fusesAfterBurn (s : State) : FuseMap :=
  match s.burnDone with
  | some b => (burned b s).lcc.fuses
  | none => s.lcc.fuses

/-- The Thimble wipe is over; a transition that waits for it takes force, and the identity key is derived again where the new state
has one and no tamper event forbids it (R508, R511). -/
def endWipe (s : State) : State :=
  let s := { s with lcc.wipeRunning := false }
  match s.lcc.transition with
  | some (_, next) =>
    { s with
      lcc.fuses := s.lcc.fuses.withLife next
      lcc.transition := none
      lcc.identity := (next == .provisioned || next == .field) && s.lcc.tamper == 0 }
  | none => s

/-! ## Tamper (R510, R511) -/

/-- Bit and DETAIL_A of a source. -/
def TamperSource.code : TamperSource → Nat
  | .pin => 1 | .voltage => 2 | .clock => 3 | .temperature => 4

/-- What a tamper event does at once, the burn it stops apart. -/
def tamperEffects (src : TamperSource) (s : State) : State :=
  let s := startWipe s
  let s := { s with
    lcc.tamper := s.lcc.tamper ||| BitVec.ofNat 4 (2 ^ (TamperSource.code src - 1))
    lcc.tamperEvents := satAdd 65535 s.lcc.tamperEvents 1
    sm.tampered := true }
  latchCause 8 0x0C06 (raiseAlarm 0x0C06 (TamperSource.code src) 0 s)

end Sys2Proof.Machine
end

