-- ==== Sys2Proof/Machine/Mailbox.lean ====
section
/-!
DEFINITION. The mailboxes (R419 to R422, R486 to R489): the catalogue, acceptance of a doorbell, the order in which accepted commands
run, their completion, and what cuts a command off (R417, R435, R511).
-/

namespace Sys2Proof.Machine

open Sys2Proof

/-! ## The catalogue (R421, R488) -/

/-- An opcode of the catalogue: its class, the bits that each named argument register defines, from ARG0 on, and whether it needs the
arithmetic domain (R502). -/
structure Opcode where
  code : Nat
  immediate : Bool
  masks : List Nat
  arithmetic : Bool := false
  deriving DecidableEq, Repr

/-- All bits of an argument register. -/
def whole : Nat := 0xFFFFFFFF

/-- The mailbox commands. -/
def catalogue : List Opcode :=
  [⟨0x0101, false, [0x3, whole, whole, whole], false⟩,
   ⟨0x0102, false, [0xFFFF], false⟩,
   ⟨0x0103, false, [0xFFFF, whole, whole, whole], false⟩,
   ⟨0x0104, false, [0xFFFFFF, whole, whole, whole], false⟩,
   ⟨0x0105, false, [0, whole, whole, whole], false⟩,
   ⟨0x0106, false, [0xFFFF, whole, whole], true⟩,
   ⟨0x0107, true, [0xFFFF], false⟩,
   ⟨0x0108, true, [0xFFFFF, whole], false⟩,
   ⟨0x0109, true, [0x3FFFFF, 0xFFFFFF], false⟩,
   ⟨0x0301, false, [0x1], true⟩,
   ⟨0x0302, false, [], false⟩,
   ⟨0x0601, false, [0x3FFFFF, 0xFFF], true⟩,
   ⟨0x0901, true, [], false⟩,
   ⟨0x0A01, false, [0x1], false⟩,
   ⟨0x0A02, true, [0x10FFF, whole, whole, whole], true⟩,
   ⟨0x0A03, false, [0x11FFF, whole, whole], true⟩,
   ⟨0x0A04, true, [0xF], false⟩,
   ⟨0x0B01, true, [whole, whole], false⟩,
   ⟨0x0B02, true, [whole, whole], false⟩,
   ⟨0x0C01, false, [whole, whole, whole], true⟩,
   ⟨0x0C02, true, [whole], false⟩,
   ⟨0x0C03, true, [whole, whole, whole, whole, whole, whole, whole, whole], false⟩,
   ⟨0x0C04, false, [0x3], false⟩,
   ⟨0x0C05, false, [0x7], false⟩,
   ⟨0x0C06, false, [0xF, 0xFF], false⟩]

/-- The catalogue's entry of an opcode. -/
def opcodeOf (code : Nat) : Option Opcode := catalogue.find? (·.code == code)

/-- The opcode that the serving firmware knows: none but FW_LOAD while the boot ROM runs (R421). -/
def State.known (s : State) (code : Nat) : Option Opcode :=
  if s.fw.stage == .bootRom && code != 0x0C01 then none else opcodeOf code

/-- No bit outside the named ones is set in the argument registers (R486). -/
def argsDefined (o : Opcode) (a : List Nat) : Bool := (List.range 16).all fun i => arg a i &&& nth o.masks i 0 == arg a i

/-! ## JOB_DISARM (R67, R489) -/

/-- The record of a JOB_ARM that a JOB_DISARM cancels. -/
def armCancelled (id : BitVec 16) : Completion := { status := .aborted, reason := 0x0207, job := id }

/-- The accepted JOB_ARM commands of a job that have not started. -/
def State.waitingArms (s : State) (id : BitVec 16) : List Nat :=
  s.accepted.filter fun n => (s.box n).opcode == 0x0106 && (nth (s.box n).args 0 0).toNat % 65536 == id.toNat

/-- Cancel the JOB_ARM of a job that waits for its peers. -/
def cancelArming (id : BitVec 16) (s : State) : State :=
  match s.arming with
  | none => s
  | some x => match s.jobIn x.slot with
    | some j =>
      if j.id == id then
        completeMailbox x.mbx (armCancelled id)
          (clearConfigs j { s with arming := none, serialBusy := if s.serialBusy == some x.mbx then none else s.serialBusy })
      else s
    | none => s

/-- Cancel every JOB_ARM of a job that a JOB_DISARM has met: those that wait, and the one that has started. -/
def cancelArms (id : BitVec 16) (s : State) : State :=
  let waiting := (s.waitingArms id).filter fun n => (s.box n).met
  let s := waiting.foldl (fun s n => completeMailbox n (armCancelled id) s) { s with accepted := s.accepted.filter fun n => !waiting.contains n }
  cancelArming id s

/-- A JOB_ARM of the job waits for its peers. -/
def State.armStarted (s : State) (id : BitVec 16) : Bool :=
  match s.arming with | some x => (match s.jobIn x.slot with | some j => j.id == id | none => false) | none => false

/-- JOB_DISARM (0x0107); no completion while work items of the job still run.  It meets the JOB_ARM commands that were accepted before it, and no later
one (R489). -/
def jobDisarmCmd (mbx : Nat) (a : List Nat) (s : State) : State × Option Completion :=
  let id := BitVec.ofNat 16 (arg a 0)
  let arms := (s.box mbx).met || s.armStarted id
  let s := cancelArms id s
  match liveJob a s with
  | some (slot, j) =>
    let s := disarmJob slot j s
    if s.activeJob.isSome then ({ s with disarming := some (mbx, slot) }, none) else (s, some { job := id })
  | none => if arms then (s, some { job := id }) else (s, some { status := .refused, reason := 0x0112, job := id })

/-! ## The other commands (R488) -/

/-- A command that is complete once it has run. -/
def now (r : CmdResult) : State × Option Completion := (r.1, some r.2)

/-- MEM_FLIP_ARM (0x0A02): its arguments are checked before its data mask is read. -/
def memFlipArmCmd (mbx : Nat) (a : List Nat) (s : State) : CmdResult :=
  completionOf (runProg (do
    checkOp fun s => discard (armFlip (arg a 0) (argAddr a 1) (arg a 3) 0 s)
    let data ← getWord fwReq (payloadBase mbx)
    tryOp (armFlip (arg a 0) (argAddr a 1) (arg a 3) (word data))) s)

/-- PATTERN_INSTALL (0x0301). -/
def patternInstallCmd (a : List Nat) (s : State) : CmdResult :=
  match patternInstall (bits (arg a 0) 0 1) s with
  | (s, .ok _) => (s, {})
  | (s, .error f) => (s, f.completion)

/-- SYNC_ALIGN (0x0B02): no completion before an edge or the timeout; a MASTER holds SYNC low for 1 µs (R56). -/
def syncAlignCmd (mbx : Nat) (a : List Nat) (s : State) : State × Option Completion :=
  ({ s with line.syncArm := s.line.syncArm ++ [{ mbx := mbx, value := argAddr a 0, limit := s.now + 10000000 }]
            line.syncLow := if s.role == .master then 1000 else s.line.syncLow }, none)

/-- No job is defined or armed in BLANK and SCRAPPED (R507). -/
def State.jobsAllowed (s : State) : Bool := s.lcc.fuses.lifeCycle != .blank && s.lcc.fuses.lifeCycle != .scrapped

/-- Run a command of the catalogue: the state it leaves, and its completion unless it goes on. -/
def runCommand (mbx code : Nat) (a : List Nat) (s : State) : State × Option Completion :=
  match code with
  | 0x0101 => if s.jobsAllowed then now (jobDefineCmd a s) else now (refused 0x0112 s)
  | 0x0102 => now (jobDeleteCmd a s)
  | 0x0103 => now (tableLoadCmd a s)
  | 0x0104 => now (listLoadCmd a s)
  | 0x0105 => now (configWriteCmd a s)
  | 0x0106 => if s.jobsAllowed then jobArmCmd mbx a s else now (refused 0x0112 s (BitVec.ofNat 16 (arg a 0)))
  | 0x0107 => jobDisarmCmd mbx a s
  | 0x0108 => now (channelGoalCmd a s)
  | 0x0109 => now (servicePriorityCmd a s)
  | 0x0301 => now (patternInstallCmd a s)
  | 0x0302 => now (checkCmd (patternRetire s) s)
  | 0x0601 => now (networkLoadCmd a s)
  | 0x0901 => now (checkCmd (safetyResume s) s)
  | 0x0A01 => now (checkCmd (memoryMode (bits (arg a 0) 0 1 == 1) s) s)
  | 0x0A02 => now (memFlipArmCmd mbx a s)
  | 0x0A03 => now (checkCmd (repairCommand (arg a 0) (arg a 1) (arg a 2) s) s)
  | 0x0A04 => now (checkCmd (resumeEngine (bits (arg a 0) 0 4) s) s)
  | 0x0B01 => now (checkCmd (lineReference (arg a 0) (arg a 1) s) s)
  | 0x0B02 => syncAlignCmd mbx a s
  | 0x0C01 => fwLoadCmd a s
  | 0x0C02 => now (traceControlCmd a s)
  | 0x0C03 => now (attestCmd mbx a s)
  | 0x0C04 => now (powerStateCmd a s)
  | 0x0C05 => lifecycleSetCmd mbx a s
  | 0x0C06 => keyProvisionCmd mbx a s
  | _ => now (refused 0x0115 s)

/-! ## Order of service (R421, R433 to R435) -/

/-- The core that serves mailbox commands: CC0, or the one to which its duty has passed (R434). -/
def State.servingCore (s : State) : Option Nat := s.dutyCore 0

/-- Commands are served: by the boot ROM, or by the running firmware. -/
def State.serves (s : State) : Bool :=
  match s.fw.stage with
  | .bootRom => true
  | .running => s.servingCore.isSome
  | .loading | .updating => false

/-- An accepted command may start by its class: an IMMEDIATE one at once, a SERIAL one when none runs (R421). -/
def State.mayStart (s : State) (n : Nat) : Bool := (s.box n).immediate || s.serialBusy.isNone

/-- The attestation is the duty of CC3; ATTEST waits while the running firmware has no core that does it (R434, R435). -/
def State.attests (s : State) : Bool := s.fw.stage != .running || (s.dutyCore 3).isSome
def State.attestWaits (s : State) (n : Nat) : Bool := (s.box n).opcode == 0x0C03 && !s.attests

/-- The accepted command that starts next.  Those that waited through an update run in acceptance order (R433); of the others, the oldest IMMEDIATE
one, else the oldest SERIAL one when none runs (R421). -/
def State.nextCommand (s : State) : Option Nat :=
  if !s.serves then none
  else
    let able := s.accepted.filter fun n => !s.attestWaits n
    let fresh := able.filter fun n => !(s.box n).waited
    let later := match fresh.find? fun n => (s.box n).immediate with
      | some n => some n
      | none => if s.serialBusy.isNone then fresh.head? else none
    match able.find? fun n => (s.box n).waited with
    | some n => if s.mayStart n then some n else fresh.find? fun n => (s.box n).immediate
    | none => later

/-- The job that ARG0 of a mailbox command names, for the opcodes that name one (R488); 0xFFFF otherwise. -/
def State.jobNamed (s : State) (n : Nat) : BitVec 16 :=
  let b := s.box n
  if [0x0102, 0x0103, 0x0104, 0x0106, 0x0107, 0x0108, 0x0109, 0x0601].contains b.opcode.toNat then (nth b.args 0 0).setWidth 16 else 0xFFFF

/-- A command that is cut off or refused before it runs: of an FW_LOAD, LAST_FAIL takes the reason (R432). -/
def endedEarly (n reason : Nat) (s : State) : State :=
  if (s.box n).opcode == 0x0C01 then { s with fw.lastFail := BitVec.ofNat 16 reason } else s

/-- The service that ARG0 of a SERVICE_PRIORITY names; 0 for the other opcodes, none of which names one (R487, R488). -/
def State.serviceNamed (s : State) (n : Nat) : Nat :=
  let b := s.box n
  if b.opcode == 0x0109 then bits (nth b.args 0 0).toNat 16 6 else 0

/-- Start the command that mailbox n holds; a JOB_ARM that a JOB_DISARM has met ends ABORTED (R489). -/
def startCommand (n : Nat) (s : State) : State × Option Completion :=
  let b := s.box n
  let code := b.opcode.toNat
  let a := b.args.map (·.toNat)
  let s := { s with accepted := s.accepted.filter (· != n), mbx := upd s.mbx n fun b => { b with started := true } }
  match s.known code with
  | none => now (refused 0x0115 s)
  | some o =>
    if b.met && code == 0x0106 then now (s, armCancelled (s.jobNamed n))
    else if !argsDefined o a then now (refused 0x0105 (endedEarly n 0x0105 s) (s.jobNamed n) (s.serviceNamed n))
    else runCommand n code a (if o.arithmetic && s.power == .idle then { s with power := .on } else s)

/-- Start accepted commands, at most the number given, until none may start. -/
def pump : Nat → State → State
  | 0, s => s
  | k + 1, s => match s.nextCommand with
    | none => s
    | some n => match startCommand n s with
      | (t, some c) => pump k (completeMailbox n c t)
      | (t, none) => pump k (if (t.box n).immediate then t else { t with serialBusy := some n })

/-- Start the accepted commands that may start now. -/
def serve (s : State) : State := pump s.accepted.length s

/-- A command that went on completes, and the next ones start. -/
def finish (n : Nat) (c : Completion) (s : State) : State :=
  let s := completeMailbox n c s
  serve { s with serialBusy := if s.serialBusy == some n then none else s.serialBusy }

/-- The completion that an operation reports, if any. -/
def finishSome (r : State × Option (Nat × Completion)) : State :=
  match r with
  | (s, some (n, c)) => finish n c s
  | (s, none) => s

/-- The job whose last work item has completed is DEFINED, and its JOB_DISARM completes (R67). -/
def settle (s : State) : State :=
  match s.disarmed? with
  | none => s
  | some slot =>
    let s := s.setJob slot fun j => { j with state := .defined }
    match s.disarming with
    | some (n, m) => finish n { job := ((s.jobIn m).map (·.id)).getD 0xFFFF } { s with disarming := none }
    | none => s

/-! ## Doorbells (R420) -/

/-- The JOB_ARM commands that a doorbell of mailbox n meets: for a JOB_DISARM with defined arguments, those of its job accepted and not started (R486,
R489). -/
def State.metArms (s : State) (n : Nat) (opcode : BitVec 16) : List Nat :=
  let a := (s.box n).args.map (·.toNat)
  match s.known 0x0107 with
  | some o => if opcode == 0x0107 && argsDefined o a then s.waitingArms (BitVec.ofNat 16 (arg a 0)) else []
  | none => []

/-- A doorbell write is accepted. -/
def accept (n : Nat) (opcode seq : BitVec 16) (s : State) : State :=
  let imm := match s.known opcode.toNat with | some o => o.immediate | none => true
  let arms := s.metArms n opcode
  let boxes := arms.foldl (fun l m => upd l m fun b => { b with met := true }) s.mbx
  { s with
    accepted := s.accepted ++ [n]
    mbx := upd boxes n fun b => { b with busy := true, immediate := imm, seq := seq, opcode := opcode, started := false
                                         waited := s.fw.stage == .updating || s.fw.stage == .loading, met := !arms.isEmpty } }

/-- A write to MBX_n_DOORBELL. -/
def doorbell (n : Nat) (opcode seq : BitVec 16) (s : State) : State :=
  if !s.hostReaches then s
  else if (s.box n).busy then { s with mbx := upd s.mbx n fun b => { b with collision := true } }
  else serve (accept n opcode seq s)

/-! ## What cuts a command off -/

/-- Function Level Reset: accepted commands that have not started complete ABORTED (R417). -/
def functionReset (s : State) : State :=
  let waiting := s.accepted
  let s := waiting.foldl (fun s n => completeMailbox n { status := .aborted, reason := 0x0207, job := s.jobNamed n, service := s.serviceNamed n }
      (endedEarly n 0x0207 s))
    { s with accepted := [] }
  resetFunction s

/-- The record of what a restart or a tamper event cuts off. -/
def faultCut : Completion := { status := .aborted, reason := 0x0208 }

/-- The mailbox of the LIFECYCLE_SET or KEY_PROVISION that waits for the life-cycle controller. -/
def State.fuseBoxes (s : State) : List Nat :=
  (s.lcc.burn.bind (·.mbx)).toList ++ (s.lcc.transition.bind (·.1)).toList

/-- The mailbox commands that the serving core executes across steps end.  The burn and the Thimble wipe of a LIFECYCLE_SET or KEY_PROVISION are the
life-cycle controller's work and go on without it (DESIGN CHOICE, log 24). -/
def cutCommands (s : State) : State :=
  let boxes := s.line.syncArm.map (·.mbx) ++ (s.disarming.map (·.1)).toList ++ (s.arming.map (·.mbx)).toList ++ s.fuseBoxes
  let busy := match s.serialBusy with | some n => (if boxes.contains n then none else some n) | none => none
  boxes.foldl (fun s n => completeMailbox n { faultCut with job := s.jobNamed n } s)
    { s with
      line.syncArm := [], disarming := none, arming := none, serialBusy := busy
      lcc.burn := s.lcc.burn.map fun b => { b with mbx := none }
      lcc.transition := s.lcc.transition.map fun x => (none, x.2) }

/-- The item that a core runs ends ABORTED, whatever it had come to (R435). -/
def cutItem (n : Nat) (s : State) : State :=
  match s.shu.items.find? fun it => it.phase == .running && it.engine == some (.cc (Fin.ofNat 4 n)) with
  | some it =>
    let s := { s with pl.gathers := s.pl.gathers.filter (·.item != it.id) }
    completeItem it.id (done .aborted 0x0208) s
  | none => s

/-- A restart of a core by its watchdog leaves it held when the one before lies within 1 s. -/
def State.secondExpiry (s : State) (n : Nat) : Bool :=
  match nth s.fw.lastRestart n none with
  | some t => s.now ≤ t + 1000000000
  | none => false

/-- The latest kick of WDTn that the state shows: the scheduler of the core ran when it reported ready and when it took the item that it runs.  The
kicks since are the firmware's own; WATCHDOG_EXPIRY says that none came for 2.0 ms (R435; DEDUCED, log 89). -/
def State.lastKick (s : State) (n : Nat) : Nat :=
  let own := nth s.fw.kicked n 0
  match s.shu.items.find? fun it => it.phase == .running && it.engine == some (.cc (Fin.ofNat 4 n)) with
  | some it => max own it.started
  | none => own

/-- The watchdog of core n expires, 2.0 ms after its last kick (R435). -/
def watchdogExpiry (n : Nat) (s : State) : State :=
  if s.fw.stage != .running || !s.fw.ready.getLsbD n || s.now < s.lastKick n + 2000000 then s
  else
    let bit : BitVec 4 := BitVec.ofNat 4 (2 ^ n)
    let serving := s.servingCore == some n
    let again := s.secondExpiry n
    let s := { s with
      fw.ready := s.fw.ready &&& ~~~bit
      fw.expired := s.fw.expired ||| bit
      fw.held := if again then s.fw.held ||| bit else s.fw.held
      fw.stuck := if again then s.fw.stuck ||| bit else s.fw.stuck
      fw.lastRestart := if again then s.fw.lastRestart else upd s.fw.lastRestart n fun _ => some s.now
      fw.expiries := upd s.fw.expiries n fun k => satAdd 255 k 1
      shu.gets := s.shu.gets.filter (· != .cc (Fin.ofNat 4 n)) }
    let s := latchCause 7 0x0C04 (raiseAlarm 0x0C04 n 0 s)
    serve (cutItem n (if serving then cutCommands s else s))

/-- Core n reports ready: after its watchdog (R435), or as one of the cores of a load (R432). -/
def coreReady (n : Nat) (s : State) : State :=
  if s.fw.stage == .bootRom || s.fw.held.getLsbD n || s.fw.ready.getLsbD n then s
  else
    let bit : BitVec 4 := BitVec.ofNat 4 (2 ^ n)
    let s := { s with fw.ready := s.fw.ready ||| bit, fw.expired := s.fw.expired &&& ~~~bit, fw.kicked := upd s.fw.kicked n fun _ => s.now }
    if s.fw.stage == .running then serve s
    else if s.coresReady then
      let s := fwRunning s
      match s.serialBusy with
      | some m => finish m {} s
      | none => serve s
    else s

/-- The mailbox command that waited for the life-cycle controller completes, unless it was cut off (R435). -/
def finishFuse (m : Option Nat) (c : Completion) (s : State) : State :=
  match m with
  | some n => finish n c s
  | none => s

/-- A tamper event: its effects, and the end of a burn in progress (R511). -/
def tamperEvent (src : TamperSource) (s : State) : State :=
  if !s.lcc.tamperArmed then s
  else
    let s := tamperEffects src s
    match s.lcc.burn with
    | some b => finishFuse b.mbx faultCut { s with lcc.burn := none }
    | none => s

/-- A Thimble wipe ends; the LIFECYCLE_SET that waits for it completes. -/
def wipeDone (s : State) : State :=
  if !s.lcc.wipeRunning then s
  else match s.lcc.transition with
    | some (m, _) => finishFuse m {} (endWipe s)
    | none => endWipe s

/-- The burn whose time has come ends; KEY_PROVISION completes. -/
def endBurn (s : State) : State :=
  match s.burnDone with
  | none => s
  | some b => match b.target with
    | .lifeCycle _ => burned b s
    | .fwKey _ | .patternKey _ _ | .svn _ => finishFuse b.mbx {} (burned b s)

end Sys2Proof.Machine
end

