-- ==== Sys2Proof/Machine/Command.lean ====
section
/-!
DEFINITION. What every command has in common: the frame around its effect.  A command leaves the queue, the grade and, the burns and the losses
of power apart, the Fuse Map alone (R2, R505); after it a job whose disarm has run its course is DEFINED (R67).
-/

namespace Sys2Proof.Machine

open Sys2Proof

/-- The outcome of a command. -/
abbrev Outcome := Host.Outcome State Fault Refusal

/-- The state after a command that burns no fuse and loads no Global Counter: queue, grade, Fuse Map, board position and Global Counter
stand (R2, R53, R459, R505). -/
def settled (s t : State) : State :=
  { settle t with pending := s.pending, grade := s.grade, boardPos := s.boardPos, gcnt := s.gcnt, lcc.fuses := s.lcc.fuses }

/-- A command that the compute die carries out: it has no effect while the die is Off (R501). -/
def onDevice (f : State → State) (s : State) : Outcome := .next (if s.awake then settled s (f s) else s)

/-- A command of the host: it reaches the device while the device is awake, the Die Link up and the function in D0 (R416, R417).  No row of the table
writes the configuration space: a host that commands the function has set it up first, so that the first command after a wake or a Function Level
Reset finds it set up (DESIGN CHOICE, log 30). -/
def fromHost (f : State → State) (s : State) : Outcome :=
  .next (if s.hostReaches then settled s (f s) else if (setUp s).hostReaches then settled s (f (setUp s)) else s)

/-- A command at a multiple of a number of ns of the Global Counter; at any other count nothing is due. -/
def onCount (period : Nat) (f : State → State) (s : State) : Outcome := onDevice (fun s => if s.now % period == 0 then f s else s) s

/-- A command on power or fuses: queue and grade stand. -/
def onPower (f : State → State) (s : State) : Outcome := .next { f s with pending := s.pending, grade := s.grade }

/-! ## Operations on work items -/

/-- What an operation may change beside the memories with their codes, the private contents of slot buffers, the reports and its own
item: the parts of the state that belong to its engine (R78). -/
structure Reach where
  me : Bool := false
  line : Bool := false
  shu : Bool := false
  occ : Bool := false
  trc : Bool := false
  chans : Bool := false
  pse : Bool := false
  te : Bool := false
  tks : Bool := false
  fi : Bool := false
  sheet : Bool := false
  sm : Bool := false
  fp : Bool := false
  pl : Bool := false
  jobs : Bool := false
  deriving DecidableEq, Repr

/-- The state that an operation leaves: every part outside its reach stands. -/
def within (r : Reach) (s t : State) : State :=
  { s with
    mem := t.mem, memCtl := t.memCtl, rings := t.rings, alarms := t.alarms, firstFault := t.firstFault, link := t.link, se := t.se,
    freeCount := t.freeCount
    me := if r.me then t.me else s.me
    line := if r.line then t.line else s.line
    shu := if r.shu then t.shu else s.shu
    occ := if r.occ then t.occ else s.occ
    trc := if r.trc then t.trc else s.trc
    chans := if r.chans then t.chans else s.chans
    pse := if r.pse then t.pse else s.pse
    te := if r.te then t.te else s.te
    tks := if r.tks then t.tks else s.tks
    fi := if r.fi then t.fi else s.fi
    sheet := if r.sheet then t.sheet else s.sheet
    sm := if r.sm then t.sm else s.sm
    fp := if r.fp then t.fp else s.fp
    pl := if r.pl then t.pl else s.pl
    jobs := if r.jobs then t.jobs else s.jobs }

/-- An operation kept within its reach. -/
def reaching (r : Reach) (f : Item → Job → State → State × Option Result) (it : Item) (j : Job) (s : State) : State × Option Result :=
  match f it j s with
  | (t, x) => (within r s t, x)

/-- An operation on the RUNNING item that it names. -/
def onItem (id op : Nat) (r : Reach) (f : Item → Job → State → State × Option Result) (s : State) : Outcome :=
  onDevice (runOp id op (reaching r f)) s

/-- An operation on the RUNNING item that it names, where the entry is of the row's form. -/
def onForm (id op : Nat) (p : Entry → Bool) (r : Reach) (f : Item → Job → State → State × Option Result) (s : State) : Outcome :=
  onDevice (fun s => match s.runningItem id op with
    | some (it, _) => if p it.entry then runOp id op (reaching r f) s else s
    | none => s) s

end Sys2Proof.Machine
end

