-- ==== Sys2Proof/Machine/Clock.lean ====
section
/-!
DEFINITION. The tick: what an empty queue does (assumption log 14).
-/

namespace Sys2Proof.Machine

open Sys2Proof

/-- LCC_TEMP at a sample: the hottest junction sensor now, and the highest value since the wake, signed (R492). -/
def tempSample (old : Reg) (now : BitVec 16) : Reg :=
  let top : BitVec 16 := (old >>> 16).setWidth 16
  (if top.slt now then now else top) ++ now

/-- The sensors of the life-cycle controller, sampled every 1 ms of Global Counter time (R492); what they show is free (assumption log 55). -/
def State.sensed (s : State) : Lcc :=
  if (s.now + 1) % 1000000 == 0 then
    { s.lcc with temp := tempSample s.lcc.temp (Config.junction s.freeCount), powerEst := (Config.power s.freeCount).setWidth 32 }
  else s.lcc

/-- What one ns changes in every awake device: the Global Counter (R53), the rest of a SYNC pulse (R56), the sensors, and, both free, whether the
duplicated and checksummed logic is at fault (assumption log 69) and what the firmware has to log (assumption log 58). -/
def State.passNs (s : State) : State :=
  { s with gcnt := s.gcnt + 1, line.syncLow := s.line.syncLow - 1, lcc := s.sensed, upset := Config.upset s.freeCount,
           note := Config.firmwareNote s.freeCount, freeCount := s.freeCount + 1 }

/-- What stands is acted on at every ns: the log record of the firmware, and what the Safety Manager does. -/
def actNs (s : State) : State := safetyTick (noteTick s)

/-- One tick of the Global Counter, 1 ns (R53): what stands is acted on, then the count moves; a fuse burn whose time has come ends, and
no other fuse changes (R505, R506, R508). -/
def tick (s : State) : State :=
  if s.awake then
    { settled s (endBurn (actNs s).passNs) with gcnt := s.gcnt + 1, lcc.fuses := s.passNs.fusesAfterBurn }
  else s

end Sys2Proof.Machine
end

