-- ==== Sys2Proof/Machine/FieldPortCommands.lean ====
section
/-!
DEFINITION. The rows of the Field Ports (R442 to R457).
-/

namespace Sys2Proof.Machine

open Sys2Proof

/-- A transmit opportunity of a port (R451). -/
def execFpTransmitOpportunity (port : Fin 4) (s : State) : Outcome := onDevice (transmit port) s

/-- A TIME frame falls due (R443). -/
def execTimeFrameDue (port : Fin 4) (s : State) : Outcome := onDevice (timeDue port) s

/-- SETPOINT frames not started by their G_BASE are discarded (R451). -/
def execSetpointLateDiscard (port : Fin 4) (s : State) : Outcome := onDevice (lateDiscard port) s

/-- A frame arrives on a port (R455). -/
def execFpFrameReceive (port : Fin 4) (frame : List Byte) (fcsOk : Bool) (s : State) : Outcome := onDevice (receiveFrame port frame fcsOk) s

/-- The evaluation of a node's feedback (R457). -/
def execFpFeedbackTimeout (port : Fin 4) (node : Fin 8) (s : State) : Outcome := onDevice (feedbackTimeout port node) s

/-- A follower port hears no coordinator (R445). -/
def execPlcaCoordinatorLost (port : Fin 4) (s : State) : Outcome := onDevice (plcaLost port) s

/-- The coordinator is heard again (R445). -/
def execPlcaResume (port : Fin 4) (s : State) : Outcome := onDevice (plcaResumed port) s

end Sys2Proof.Machine
end

