-- ==== Sys2Proof/Machine/FrameCommands.lean ====
section
/-!
DEFINITION. The rows of Frame Intake (R323 to R334).
-/

namespace Sys2Proof.Machine

open Sys2Proof

/-- A Frame Start packet (R328). -/
def execFrameStart (port vc : Fin 4) (number : BitVec 16) (ecc : HeaderEcc) (s : State) : Outcome :=
  onDevice (packetFrameStart port vc number ecc) s

/-- A long packet (R324, R326). -/
def execCsiLongPacket (port vc : Fin 4) (dataType : BitVec 6) (wordCount : Nat) (payload : List Byte) (crcOk : Bool) (ecc : HeaderEcc)
    (s : State) : Outcome :=
  onDevice (packetLong port vc dataType.toNat wordCount payload crcOk ecc) s

/-- A Frame End packet (R326). -/
def execFrameEnd (port vc : Fin 4) (_number : BitVec 16) (ecc : HeaderEcc) (s : State) : Outcome := onDevice (packetFrameEnd port vc ecc) s

/-- A short packet other than Frame Start and Frame End (R324). -/
def execCsiShortPacket (port vc : Fin 4) (dataType : BitVec 6) (ecc : HeaderEcc) (s : State) : Outcome :=
  onDevice (packetShort port vc dataType.toNat ecc) s

/-- A frame lasts longer than FRAME_MAX (R326). -/
def execFrameMaxTimeout (port : Fin 4) (s : State) : Outcome := onDevice (frameMax port) s

/-- The decision of the Frame Freshness Monitor on the frame that has waited longest (R332, R333). -/
def execFfmDecision (port : Fin 4) (s : State) : Outcome := onDevice (ffmDecide port) s

/-- A waiting FRAME_TAKE reaches its limit (R334). -/
def execFrameTakeTimeout (item : Nat) (s : State) : Outcome := onDevice (takeTimeout item) s

end Sys2Proof.Machine
end

