-- ==== Sys2Proof/Machine/HostCommands.lean ====
section
/-!
DEFINITION. The host rows: registers, BAR2, rings, the submission ring, MSI-X, Function Level Reset and the Die Link (R6 to R8, R404, R415 to R438).
-/

namespace Sys2Proof.Machine

open Sys2Proof

/-! ## Writes to BAR0 (R6, R7) -/

/-- MBX_n_ARGk: writes while BUSY are ignored and are violations of access rules (R420). -/
def writeArg (n k offset : Nat) (v : Reg) (s : State) : State :=
  if (s.box n).busy then violate 0 offset true true false s
  else { s with mbx := upd s.mbx n fun b => { b with args := upd b.args k fun _ => v } }

/-- MBX_n_STATUS: DONE and COLLISION are cleared by 1. -/
def writeStatus (n : Nat) (v : Reg) (s : State) : State :=
  { s with mbx := upd s.mbx n fun b => { b with done := b.done && !v.getLsbD 1, collision := b.collision && !v.getLsbD 2 } }

/-- A write to the registers of mailbox n. -/
def writeMailboxReg (n r offset : Nat) (v : Reg) (s : State) : State :=
  if r == 0 then doorbell n (v.setWidth 16) ((v >>> 16).setWidth 16) s
  else if r == 4 then writeStatus n v s
  else if 0x20 ≤ r && r < 0x60 then writeArg n ((r - 0x20) / 4) offset v s
  else s

/-- A write to the mailbox block, by its offset within the block. -/
def writeMailboxBlock (o offset : Nat) (v : Reg) (s : State) : State :=
  if o < 0x400 then writeMailboxReg (o / 0x100) (o % 0x100) offset v s
  else match o with
    | 0x1010 => writeSqTail v s
    | 0x101C => writeHead .cq v s
    | 0x1024 => writeHead .eq v s
    | 0x102C => writeHead .lq v s
    | 0x103C => { s with link.holdoff := v.setWidth 10 }
    | 0x2020 => unfreeze v s
    | _ => if 0x2000 ≤ o && o < 0x2020 then clearSticky ((o - 0x2000) / 4) v s else s

/-- A host write to BAR0: a write that reaches no register is a violation; read-only fields ignore it. -/
def writeBar0 (offset width : Nat) (v : Reg) (s : State) : State :=
  if (s.hostRegister offset width).isNone then violate 0 offset true true false s
  else if offset == 0x18 then { s with lcc.scratch := v }
  else if offset / 0x100000 == 1 then writeMailboxBlock (offset % 0x100000) offset v s
  else s

/-! ## The rows -/

/-- A host write to a register (R6). -/
def execRegisterWrite (offset : BitVec 28) (width : Nat) (value : Reg) (s : State) : Outcome := fromHost (writeBar0 offset.toNat width value) s

/-- A host read of a register; the read of a _LO register latches its _HI half (R8). -/
def execRegisterLoRead (offset : BitVec 28) (width : Nat) (s : State) : Outcome := fromHost (readBar0 offset.toNat width) s

/-- A host write of MBX_SQ_TAIL (R424). -/
def execMbxSqTailWrite (value : Reg) (s : State) : Outcome := fromHost (writeSqTail value) s

/-- A host write of a ring's HEAD (R425). -/
def execRingHeadWrite (ring : HostRing) (value : Reg) (s : State) : Outcome := fromHost (writeHead ring value) s

/-- A write to MBX_ALARM_STICKY_m (R438). -/
def execAlarmStickyClear (m : Fin 8) (value : Reg) (s : State) : Outcome := fromHost (clearSticky m value) s

/-- A write to MBX_FF_INFO (R438). -/
def execFirstFaultUnfreeze (value : Reg) (s : State) : Outcome := fromHost (unfreeze value) s

/-- A host read through BAR2 (R418). -/
def execBar2Read (addr : BitVec 36) (len : Nat) (s : State) : Outcome := fromHost (readBar2 addr.toNat len) s

/-- A host write through BAR2 (R404). -/
def execBar2Write (addr : BitVec 36) (bytes : List (Option Byte)) (s : State) : Outcome := fromHost (writeBar2 addr.toNat bytes) s

/-- The device takes the oldest entry of the submission ring (R426). -/
def execSubmissionEntry (s : State) : Outcome := onDevice takeEntry s

/-- Function Level Reset (R417). -/
def execFunctionLevelReset (s : State) : Outcome := onDevice (fun s => if s.linkUp? then functionReset s else s) s

/-- The function enters D3hot (R417). -/
def execD3hotEntry (s : State) : Outcome := onDevice (fun s => { s with link.d3hot := true }) s

/-- The function returns to D0 (R417). -/
def execD3hotExit (s : State) : Outcome := onDevice (fun s => { s with link.d3hot := false }) s

/-- The message of a vector that is due is sent once its holdoff has passed (R430). -/
def execMsiXMessage (vector : Fin 5) (s : State) : Outcome := onDevice (sendVector vector) s

/-- A module of the Die Link fails, or the link goes down (R416). -/
def execDieLinkFailure (what : LinkFailure) (s : State) : Outcome := onDevice (linkFailure what) s

/-- An attempt to retrain the Die Link while it is down (R416). -/
def execDieLinkRetrain (trained : BitVec 2) (s : State) : Outcome := onDevice (retrainLink trained) s

end Sys2Proof.Machine
end

