-- ==== Sys2Proof/Machine/LineCommands.lean ====
section
/-!
DEFINITION. The rows of the Line Timer, of SYNC and of line distribution (R32 to R61).
-/

namespace Sys2Proof.Machine

open Sys2Proof

/-- Accepted levels of ENCn_A and ENCn_B (R36 to R38). -/
def execEncoderCount (input : Fin 2) (a b : Bool) (s : State) : Outcome := onDevice (encoderLevels input a b) s

/-- An accepted rising edge of ENCn_Z (R39). -/
def execEncoderZEdge (input : Fin 2) (s : State) : Outcome := onDevice (zEdge input) s

/-- ENCn_FLT_N stands low after its filter (R42). -/
def execEncoderFaultInput (input : Fin 2) (s : State) : Outcome := onDevice (faultInput input) s

/-- ENCn_FLT_N stands high again after its filter (R42). -/
def execEncoderFaultInputRelease (input : Fin 2) (s : State) : Outcome := onDevice (faultRelease input) s

/-- An accepted rising edge of ENC1_A in CAPTURE mode (R41). -/
def execEncoderCapture (s : State) : Outcome := onDevice encoderCapture s

/-- The comparison of redundant inputs, every 100 µs (R41). -/
def execEncoderRedundantCompare (s : State) : Outcome := onCount 100000 redundantCompare s

/-- The overspeed condition ends (R40). -/
def execEncoderOverspeedEnd (s : State) : Outcome := onDevice overspeedEnd s

/-- The evaluation of the line state, every 100 µs (R43). -/
def execLineStateEvaluation (s : State) : Outcome := onCount 100000 evaluateLine s

/-- The step of V, every 1 µs (R44). -/
def execVirtualAdvance (s : State) : Outcome := onCount 1000 stepVirtual s

/-- A Line Tick fires the due entries of the delay lists (R48 to R51). -/
def execLineTick (s : State) : Outcome := onDevice linePass s

/-- The sample of a line master, every 1 µs (R58). -/
def execLineMessageSample (s : State) : Outcome := onCount 1000 lineSample s

/-- A LINE message arrives on a Peer Link (R465). -/
def execLineMessageReceive (link : Fin 7) (g : BitVec 64) (m v : LinePos) (st : LineState) (reverse : Bool) (_count : BitVec 16)
    (s : State) : Outcome :=
  onDevice (fun s =>
    if s.peerEnabled link && (s.peer link).up then
      receiveLine (s.peer link).farPos { g := g.toNat, m := m, v := v, st := st, reverse := reverse, late := false, link := some link.val } s
    else s) s

/-- The application of the samples whose time has come (R58). -/
def execLineMessageApply (s : State) : Outcome := onDevice applyDueSample s

/-- A follower has applied no line message for LINE_MSG_TIMEOUT (R42). -/
def execLineMsgTimeout (s : State) : Outcome := onDevice lineMsgTimeout s

/-- A falling edge of SYNC (R56). -/
def execSyncEdge (s : State) : Outcome :=
  .next (if s.awake then { settled s (syncEdge s) with gcnt := (syncEdge s).gcnt } else s)

/-- No edge of SYNC within 10 ms of an arming (R56). -/
def execSyncTimeout (s : State) : Outcome := onDevice syncTimeout s

end Sys2Proof.Machine
end

