-- ==== Sys2Proof/Machine/MailboxCommands.lean ====
section
/-!
DEFINITION. The mailbox rows: each is the doorbell write of its opcode (R420, R486); what its command does is in Machine/Mailbox.lean and the
files that it calls.
-/

namespace Sys2Proof.Machine

open Sys2Proof

/-- The doorbell of JOB_DEFINE (R65, R476, R488). -/
def execJobDefine (mbx : Fin 4) (seq : BitVec 16) (s : State) : Outcome := fromHost (doorbell mbx 0x0101 seq) s

/-- The doorbell of JOB_DELETE (R65, R488). -/
def execJobDelete (mbx : Fin 4) (seq : BitVec 16) (s : State) : Outcome := fromHost (doorbell mbx 0x0102 seq) s

/-- The doorbell of TABLE_LOAD (R72, R488). -/
def execTableLoad (mbx : Fin 4) (seq : BitVec 16) (s : State) : Outcome := fromHost (doorbell mbx 0x0103 seq) s

/-- The doorbell of LIST_LOAD (R74, R488). -/
def execListLoad (mbx : Fin 4) (seq : BitVec 16) (s : State) : Outcome := fromHost (doorbell mbx 0x0104 seq) s

/-- The doorbell of CONFIG_WRITE (R70). -/
def execConfigWrite (mbx : Fin 4) (seq : BitVec 16) (s : State) : Outcome := fromHost (doorbell mbx 0x0105 seq) s

/-- The doorbell of JOB_ARM (R66). -/
def execJobArm (mbx : Fin 4) (seq : BitVec 16) (s : State) : Outcome := fromHost (doorbell mbx 0x0106 seq) s

/-- The doorbell of JOB_DISARM (R67). -/
def execJobDisarm (mbx : Fin 4) (seq : BitVec 16) (s : State) : Outcome := fromHost (doorbell mbx 0x0107 seq) s

/-- The doorbell of CHANNEL_GOAL (R206). -/
def execChannelGoal (mbx : Fin 4) (seq : BitVec 16) (s : State) : Outcome := fromHost (doorbell mbx 0x0108 seq) s

/-- The doorbell of SERVICE_PRIORITY (R489). -/
def execServicePriority (mbx : Fin 4) (seq : BitVec 16) (s : State) : Outcome := fromHost (doorbell mbx 0x0109 seq) s

/-- The doorbell of PATTERN_INSTALL (R140). -/
def execPatternInstall (mbx : Fin 4) (seq : BitVec 16) (s : State) : Outcome := fromHost (doorbell mbx 0x0301 seq) s

/-- The doorbell of PATTERN_RETIRE (R144). -/
def execPatternRetire (mbx : Fin 4) (seq : BitVec 16) (s : State) : Outcome := fromHost (doorbell mbx 0x0302 seq) s

/-- The doorbell of NETWORK_LOAD (R297). -/
def execNetworkLoad (mbx : Fin 4) (seq : BitVec 16) (s : State) : Outcome := fromHost (doorbell mbx 0x0601 seq) s

/-- The doorbell of SAFETY_RESUME (R362). -/
def execSafetyResume (mbx : Fin 4) (seq : BitVec 16) (s : State) : Outcome := fromHost (doorbell mbx 0x0901 seq) s

/-- The doorbell of MEMORY_MODE (R403). -/
def execMemoryMode (mbx : Fin 4) (seq : BitVec 16) (s : State) : Outcome := fromHost (doorbell mbx 0x0A01 seq) s

/-- The doorbell of MEM_FLIP_ARM (R408). -/
def execMemFlipArm (mbx : Fin 4) (seq : BitVec 16) (s : State) : Outcome := fromHost (doorbell mbx 0x0A02 seq) s

/-- The doorbell of MEM_REPAIR (R411). -/
def execMemRepair (mbx : Fin 4) (seq : BitVec 16) (s : State) : Outcome := fromHost (doorbell mbx 0x0A03 seq) s

/-- The doorbell of MOVE_ENGINE_RESUME (R401). -/
def execMoveEngineResume (mbx : Fin 4) (seq : BitVec 16) (s : State) : Outcome := fromHost (doorbell mbx 0x0A04 seq) s

/-- The doorbell of LINE_REFERENCE (R45). -/
def execLineReference (mbx : Fin 4) (seq : BitVec 16) (s : State) : Outcome := fromHost (doorbell mbx 0x0B01 seq) s

/-- The doorbell of SYNC_ALIGN (R56). -/
def execSyncAlign (mbx : Fin 4) (seq : BitVec 16) (s : State) : Outcome := fromHost (doorbell mbx 0x0B02 seq) s

/-- The doorbell of FW_LOAD (R432). -/
def execFwLoad (mbx : Fin 4) (seq : BitVec 16) (s : State) : Outcome := fromHost (doorbell mbx 0x0C01 seq) s

/-- The doorbell of TRACE_CONTROL (R429). -/
def execTraceControl (mbx : Fin 4) (seq : BitVec 16) (s : State) : Outcome := fromHost (doorbell mbx 0x0C02 seq) s

/-- The doorbell of ATTEST (R439). -/
def execAttest (mbx : Fin 4) (seq : BitVec 16) (s : State) : Outcome := fromHost (doorbell mbx 0x0C03 seq) s

/-- The doorbell of POWER_STATE (R501). -/
def execPowerState (mbx : Fin 4) (seq : BitVec 16) (s : State) : Outcome := fromHost (doorbell mbx 0x0C04 seq) s

/-- The doorbell of LIFECYCLE_SET (R508). -/
def execLifecycleSet (mbx : Fin 4) (seq : BitVec 16) (s : State) : Outcome := fromHost (doorbell mbx 0x0C05 seq) s

/-- The doorbell of KEY_PROVISION (R506). -/
def execKeyProvision (mbx : Fin 4) (seq : BitVec 16) (s : State) : Outcome := fromHost (doorbell mbx 0x0C06 seq) s

/-- A doorbell whose opcode the serving firmware does not know (R421). -/
def execUnknownOpcodeRefusal (mbx : Fin 4) (opcode seq : BitVec 16) (s : State) : Outcome := fromHost (doorbell mbx opcode seq) s

/-- A doorbell write; while the mailbox is BUSY it is dropped and sets COLLISION (R420). -/
def execDoorbellCollision (mbx : Fin 4) (value : Reg) (s : State) : Outcome :=
  fromHost (doorbell mbx (value.setWidth 16) ((value >>> 16).setWidth 16)) s

end Sys2Proof.Machine
end

