-- ==== Sys2Proof/Machine/MemoryCommands.lean ====
section
/-!
DEFINITION. The rows of the memories (R389, R390, R397, R410).
-/

namespace Sys2Proof.Machine

open Sys2Proof

/-- The write-back of a corrected word (R389). -/
def execEccWriteBack (s : State) : Outcome := onDevice writeBack s

/-- Correction windows of 1 ms that have ended are reported (R390). -/
def execCorrectionWindowEnd (s : State) : Outcome := onDevice endWindows s

/-- The repair of a hard-fault candidate (R410). -/
def execAutoRepair (s : State) : Outcome := onDevice autoRepair s

/-- Write-backs to LPDDR5 that have waited 10 µs are promoted (R397). -/
def execMcRequestPromotion (s : State) : Outcome := onDevice promote s

end Sys2Proof.Machine
end

