-- ==== Sys2Proof/Machine/OperationCommands.lean ====
section
/-!
DEFINITION. The operation rows: each runs the operation of its opcode on the work item that an engine holds, and leaves the result that the
engine then reports (R88, R109).
-/

namespace Sys2Proof.Machine

open Sys2Proof

/-- JOB_EVENT (R101). -/
def execJobEvent (item : Nat) (s : State) : Outcome := onItem item 0x0102 {} jobEventItem s

/-- DELAY_INSERT (R52). -/
def execDelayInsert (item : Nat) (s : State) : Outcome := onItem item 0x0203 { line := true } delayInsertItem s

/-- DELAY_CANCEL (R52). -/
def execDelayCancel (item : Nat) (s : State) : Outcome := onItem item 0x0204 { line := true } delayCancelItem s

/-- EPOCH_COMMIT (R167). -/
def execEpochCommit (item : Nat) (s : State) : Outcome := onItem item 0x0301 { occ := true, chans := true, shu := true, jobs := true } epochCommitItem s

/-- EPOCH_APPLY (R168, R181, R191). -/
def execEpochApply (item : Nat) (s : State) : Outcome := onItem item 0x0302 { occ := true, trc := true } epochApplyItem s

/-- DELTA_INJECT (R157). -/
def execDeltaInject (item : Nat) (s : State) : Outcome := onItem item 0x0303 { occ := true } deltaInjectItem s

/-- EDGE_READ (R192). -/
def execEdgeRead (item : Nat) (s : State) : Outcome := onItem item 0x0304 { trc := true } edgeReadItem s

/-- SEARCH (R208, R210). -/
def execSearch (item : Nat) (s : State) : Outcome := onItem item 0x0401 { trc := true, chans := true, pse := true } searchItem s

/-- DARN (R214, R216). -/
def execDarn (item : Nat) (s : State) : Outcome := onItem item 0x0402 { trc := true, chans := true, pse := true } darnItem s

/-- STRUCTURE_LOAD (R234). -/
def execStructureLoad (item : Nat) (s : State) : Outcome := onItem item 0x0501 {} structureLoadItem s

/-- EASE (R259, R266). -/
def execEase (item : Nat) (s : State) : Outcome := onItem item 0x0502 {} easeItem s

/-- QP_SOLVE (R244, R249). -/
def execQpSolve (item : Nat) (s : State) : Outcome := onItem item 0x0503 {} qpSolveItem s

/-- LSQ_FIT with phase 0, CLEAR_ACCUMULATE (R251, R252). -/
def execLsqFitClearAccumulate (item : Nat) (s : State) : Outcome :=
  onForm item 0x0504 (fun e => bits (Entry.param e) 3 2 == 0) {} (lsqAccumulateItem true) s

/-- LSQ_FIT with phase 1, ACCUMULATE (R251, R252). -/
def execLsqFitAccumulate (item : Nat) (s : State) : Outcome :=
  onForm item 0x0504 (fun e => bits (Entry.param e) 3 2 == 1) {} (lsqAccumulateItem false) s

/-- LSQ_FIT with phase 2, SOLVE (R251, R253). -/
def execLsqFitSolve (item : Nat) (s : State) : Outcome := onForm item 0x0504 (fun e => bits (Entry.param e) 3 2 == 2) {} lsqSolveItem s

/-- NETWORK_SEGMENT (R299). -/
def execNetworkSegment (item : Nat) (s : State) : Outcome := onItem item 0x0601 { te := true } segmentItem s

/-- MATMUL (R300). -/
def execMatmul (item : Nat) (s : State) : Outcome := onItem item 0x0602 { te := true } matmulItem s

/-- TOPK (R311). -/
def execTopk (item : Nat) (s : State) : Outcome := onItem item 0x0701 { tks := true } (topkItem false) s

/-- TOPK_MERGE (R317). -/
def execTopkMerge (item : Nat) (s : State) : Outcome := onItem item 0x0702 { tks := true } (topkItem true) s

/-- FRAME_TAKE (R334). -/
def execFrameTake (item : Nat) (s : State) : Outcome := onItem item 0x0801 { fi := true } frameTakeItem s

/-- FRAME_RETURN (R336). -/
def execFrameReturn (item : Nat) (s : State) : Outcome := onItem item 0x0802 { fi := true } frameReturnItem s

/-- GOLDEN_INJECT (R344). -/
def execGoldenInject (item : Nat) (s : State) : Outcome := onItem item 0x0803 { line := true, sheet := true } goldenInjectItem s

/-- CHECK_B on a Work Core (R353, R354). -/
def execCheckB (item : Nat) (s : State) : Outcome := onItem item 0x0901 { shu := true, sm := true } checkBOnCore s

/-- STITCH (R357, R358). -/
def execStitch (item : Nat) (s : State) : Outcome :=
  onItem item 0x0902 { shu := true, trc := true, chans := true, pse := true, sheet := true, sm := true, fp := true } stitchItem s

/-- HOLD (R360). -/
def execHold (item : Nat) (s : State) : Outcome := onItem item 0x0903 { shu := true, chans := true, pse := true, sheet := true, sm := true, fp := true } holdItem s

/-- COPY (R402). -/
def execCopy (item : Nat) (s : State) : Outcome := onItem item 0x0A01 { me := true } copyItem s

/-- FILL (R402). -/
def execFill (item : Nat) (s : State) : Outcome := onItem item 0x0A02 { me := true } fillItem s

/-- GATHER (R402). -/
def execGather (item : Nat) (s : State) : Outcome := onItem item 0x0A03 { me := true } gatherItem s

/-- SETPOINT_SEND (R454). -/
def execSetpointSend (item : Nat) (s : State) : Outcome := onItem item 0x0B01 { fp := true } setpointSendItem s

/-- CORRECTION_SEND (R340). -/
def execCorrectionSend (item : Nat) (s : State) : Outcome := onItem item 0x0B02 { sheet := true } correctionSendItem s

/-- PEER_COLLECTIVE with KIND 0, DELTA_BROADCAST (R468). -/
def execDeltaBroadcast (item : Nat) (s : State) : Outcome :=
  onForm item 0x0B03 (fun e => bits (Entry.param e) 0 4 == 0) { occ := true, pl := true } deltaBroadcastItem s

/-- PEER_COLLECTIVE with KIND 1, CAND_SEND (R468). -/
def execCandSend (item : Nat) (s : State) : Outcome := onForm item 0x0B03 (fun e => bits (Entry.param e) 0 4 == 1) { pl := true } candSendItem s

/-- PEER_COLLECTIVE with KIND 2, CAND_GATHER (R469). -/
def execCandGather (item : Nat) (s : State) : Outcome :=
  onForm item 0x0B03 (fun e => bits (Entry.param e) 0 4 == 2) { shu := true, pl := true } candGatherItem s

/-- KERNEL on a Work Core (R474). -/
def execKernel (item : Nat) (s : State) : Outcome := onItem item 0x0C01 { shu := true, sm := true } kernelItem s

end Sys2Proof.Machine
end

