-- ==== Sys2Proof/Machine/PeerCommands.lean ====
section
/-!
DEFINITION. The rows of the Peer Links (R458 to R469).
-/

namespace Sys2Proof.Machine

open Sys2Proof

/-- A training of a link (R459). -/
def execPlLinkTraining (link : Fin 7) (far : Option FarEnd) (s : State) : Outcome := onDevice (linkTraining link far) s

/-- Four successive NAKs for one flit (R461). -/
def execPlRetryLimit (link : Fin 7) (s : State) : Outcome := onDevice (retryLimit link) s

/-- The retry of training of a link that is down (R461). -/
def execPlRetrainRetry (link : Fin 7) (far : Option FarEnd) (s : State) : Outcome := onDevice (retrainRetry link far) s

/-- A virtual channel has waited 100 µs for credit (R462). -/
def execPlCreditTimeout (link : Fin 7) (vc : Fin 4) (s : State) : Outcome := onDevice (creditTimeout link vc) s

/-- A flit arrives (R460 to R462). -/
def execPlFlitReceive (link : Fin 7) (flit : Flit) (s : State) : Outcome := onDevice (receiveFlit link flit) s

/-- A DELTA message arrives (R466). -/
def execDeltaMessage (link : Fin 7) (_tag : BitVec 32) (_more : Bool) (records : List (BitVec 32)) (s : State) : Outcome :=
  onDevice (deltaMessage link records) s

/-- A FULL_STATE_REQ message arrives (R466). -/
def execFullStateReq (link : Fin 7) (s : State) : Outcome := onDevice (answerFullState link) s

/-- A FULL_STATE message arrives (R466). -/
def execFullState (link : Fin 7) (tag : BitVec 32) (entries : List FullEntry) (s : State) : Outcome :=
  onDevice (fullStateMessage link tag.toNat entries) s

/-- A CAND message arrives (R469). -/
def execCandMessage (link : Fin 7) (tag : BitVec 32) (list : List Word) (s : State) : Outcome := onDevice (candMessage link tag list) s

/-- GATHER_LIMIT of a waiting CAND_GATHER (R469). -/
def execGatherLimitExpiry (item : Nat) (s : State) : Outcome := onDevice (gatherLimit item) s

/-- A CONFIG message arrives; the JOB_ARM that waits for it may end (R467). -/
def execConfigMessage (link : Fin 7) (slicePeriod slicePhase pitch : BitVec 32) (sig : BitVec 64) (s : State) : Outcome :=
  onDevice (fun s => finishSome (finishArm (keepConfig link slicePeriod slicePhase pitch sig s))) s

/-- 10 ms without CONFIG from a peer of the job under JOB_ARM (R467). -/
def execPeerConfigTimeout (link : Fin 7) (s : State) : Outcome := onDevice (fun s => finishSome (armTimeout link s)) s

end Sys2Proof.Machine
end

