-- ==== Sys2Proof/Machine/PowerCommands.lean ====
section
/-!
DEFINITION. The rows of tamper, reset and power (R395, R499 to R511).
-/

namespace Sys2Proof.Machine

open Sys2Proof

/-- A tamper source fires (R511). -/
def execTamperEvent (source : TamperSource) (s : State) : Outcome := onDevice (tamperEvent source) s

/-- A Thimble wipe ends; the life-cycle state of a transition that waits for it governs from then on (R395, R508). -/
def execThimbleWipeDone (s : State) : Outcome :=
  .next (if s.awake then { settled s (wipeDone s) with lcc.fuses := s.fusesAfterWipe } else s)

/-- PORST_N has been low for 10 µs (R499). -/
def execPorstAssert (s : State) : Outcome := onPower (fun s => { powerDown false s with porstLow := true }) s

/-- A wake from Off (R503). -/
def execWake (straps : Straps) (gib : Fin 65) (s : State) : Outcome := onPower (wakeUp straps.bpos gib straps.testMode) s

/-- The switches open 1 ms after POWER_STATE Off (R501). -/
def execPowerOffSwitch (s : State) : Outcome := onPower offSwitch s

/-- Rails are removed at the board (R412, R501). -/
def execPowerRemoval (aonLost : Bool) (s : State) : Outcome := onPower (powerDown aonLost) s

end Sys2Proof.Machine
end

