-- ==== Sys2Proof/Machine/SafetyCommands.lean ====
section
/-!
DEFINITION. The rows of the Safety Manager, the self-test and the firmware cores (R362 to R373, R435).
-/

namespace Sys2Proof.Machine

open Sys2Proof

/-- SAFE_REQ is accepted as asserted (R367). -/
def execSafeReqAssert (s : State) : Outcome := onDevice safeReqAssert s

/-- SAFE_REQ is accepted as released (R367). -/
def execSafeReqRelease (s : State) : Outcome := onDevice safeReqRelease s

/-- The reading of the SAFE_OK pads, every 1 µs (R366). -/
def execSafeOkReadback (p n : Bool) (s : State) : Outcome := onCount 1000 (safeOkReadback p n) s

/-- The evaluation of the coverage age, every 100 µs (R372). -/
def execCoverageEvaluation (s : State) : Outcome := onCount 100000 evaluateCoverage s

/-- The start of a slice of the self-test (R371). -/
def execSelftestSliceStart (target : TestSlice) (s : State) : Outcome := onDevice (startSlice target) s

/-- The end of a slice of the self-test (R373). -/
def execSelftestSliceEnd (target : TestSlice) (pass : Bool) (s : State) : Outcome := onDevice (endSlice target pass) s

/-- A watchdog expires (R435). -/
def execWatchdogExpiry (core : Fin 4) (s : State) : Outcome := onDevice (watchdogExpiry core) s

/-- A core reports ready (R432, R435). -/
def execCcCoreReady (core : Fin 4) (s : State) : Outcome := onDevice (coreReady core) s

end Sys2Proof.Machine
end

