-- ==== Sys2Proof/Machine/ShuttleCommands.lean ====
section
/-!
DEFINITION. The rows of jobs and of the Shuttle, and the operations that complete there (R57, R91 to R112).
-/

namespace Sys2Proof.Machine

open Sys2Proof

/-- The launch of the ARMED job (R57). -/
def execJobLaunch (s : State) : Outcome := onDevice jobLaunch s

/-- The triggering that has waited longest is admitted or refused (R92, R108). -/
def execListTriggering (s : State) : Outcome := onDevice listTriggering s

/-- The Shuttle applies the signal that has waited longest (R98). -/
def execSignalApply (s : State) : Outcome := onDevice signalApply s

/-- The wait limit of an item expires (R102). -/
def execWaitLimitExpiry (item : Nat) (s : State) : Outcome := onDevice (waitExpiry item) s

/-- An engine asks for work (R104). -/
def execEngineGet (engine : Engine) (s : State) : Outcome := onDevice (engineGet engine) s

/-- An engine reports the completion of an item (R110). -/
def execItemCompletion (item : Nat) (s : State) : Outcome := onDevice (itemCompletion item) s

/-- RELEASED items take the ready entries that are free (R110). -/
def execReleasedItemReady (s : State) : Outcome := onDevice releasedReady s

/-- The release deadline of a channel (R21). -/
def execReleaseDeadline (channel : Fin 16) (s : State) : Outcome := onDevice (releaseDeadline channel) s

/-- NOP at the Shuttle (R101). -/
def execNop (item : Nat) (s : State) : Outcome := onDevice (atShuttle item 0x0101 completeAtOnce) s

/-- SIGNAL at the Shuttle (R101). -/
def execSignal (item : Nat) (s : State) : Outcome := onDevice (atShuttle item 0x0201 signalItem) s

/-- WAIT at the Shuttle (R101). -/
def execWait (item : Nat) (s : State) : Outcome := onDevice (atShuttle item 0x0202 completeAtOnce) s

end Sys2Proof.Machine
end

