-- ==== Sys2Proof/Machine/TracerCommands.lean ====
section
/-!
DEFINITION. The background work of the Tracer and of the occupancy intake (R166 to R172, R184 to R198).
-/

namespace Sys2Proof.Machine

open Sys2Proof

/-- The rotation count at the head of the queue (R185). -/
def execRotationCount (s : State) : Outcome := onDevice (tracerWork rotationCount) s

/-- The recount at the head of the queue (R184). -/
def execRecount (s : State) : Outcome := onDevice (tracerWork recount) s

/-- The sweep after an overflow of the recount queue (R184). -/
def execRecountOverflowSweep (s : State) : Outcome := onDevice (tracerWork fun _ p => overflowSweep p) s

/-- The full count after an arm or a Pattern activation (R186). -/
def execFullCount (s : State) : Outcome := onDevice (tracerWork fullCount) s

/-- Counts that exceed their bounds raise their alarm (R198). -/
def execRecountOverdue (s : State) : Outcome := onDevice recountOverdue s

/-- The intake reaches the slice of the present Global Counter, boundary by boundary (R166). -/
def execSliceBoundary (s : State) : Outcome := onDevice (fun s => match s.occCtx with | some c => boundary c s | none => s) s

/-- The evaluation of an observation source (R170). -/
def execObsSourceTimeout (port : Fin 4) (s : State) : Outcome := onDevice (obsTimeout port) s

/-- The evaluation of a peer as a source of occupancy (R172). -/
def execPeerSourceTimeout (link : Fin 7) (s : State) : Outcome := onDevice (peerTimeout link) s

end Sys2Proof.Machine
end

