-- ==== Sys2Proof/Machine/Dispatch.lean ====
section
/-!
DEFINITION. One arm for each command: its meaning in the family files of Machine/.
-/

namespace Sys2Proof.Machine

open Sys2Proof

def exec (i : Instr) (s : State) : Host.Outcome State Fault Refusal :=
  match i with
  | .jobDefine mbx seq => Sys2Proof.Machine.execJobDefine mbx seq s
  | .jobDelete mbx seq => Sys2Proof.Machine.execJobDelete mbx seq s
  | .tableLoad mbx seq => Sys2Proof.Machine.execTableLoad mbx seq s
  | .listLoad mbx seq => Sys2Proof.Machine.execListLoad mbx seq s
  | .configWrite mbx seq => Sys2Proof.Machine.execConfigWrite mbx seq s
  | .jobArm mbx seq => Sys2Proof.Machine.execJobArm mbx seq s
  | .jobDisarm mbx seq => Sys2Proof.Machine.execJobDisarm mbx seq s
  | .channelGoal mbx seq => Sys2Proof.Machine.execChannelGoal mbx seq s
  | .servicePriority mbx seq => Sys2Proof.Machine.execServicePriority mbx seq s
  | .patternInstall mbx seq => Sys2Proof.Machine.execPatternInstall mbx seq s
  | .patternRetire mbx seq => Sys2Proof.Machine.execPatternRetire mbx seq s
  | .networkLoad mbx seq => Sys2Proof.Machine.execNetworkLoad mbx seq s
  | .safetyResume mbx seq => Sys2Proof.Machine.execSafetyResume mbx seq s
  | .memoryMode mbx seq => Sys2Proof.Machine.execMemoryMode mbx seq s
  | .memFlipArm mbx seq => Sys2Proof.Machine.execMemFlipArm mbx seq s
  | .memRepair mbx seq => Sys2Proof.Machine.execMemRepair mbx seq s
  | .moveEngineResume mbx seq => Sys2Proof.Machine.execMoveEngineResume mbx seq s
  | .lineReference mbx seq => Sys2Proof.Machine.execLineReference mbx seq s
  | .syncAlign mbx seq => Sys2Proof.Machine.execSyncAlign mbx seq s
  | .fwLoad mbx seq => Sys2Proof.Machine.execFwLoad mbx seq s
  | .traceControl mbx seq => Sys2Proof.Machine.execTraceControl mbx seq s
  | .attest mbx seq => Sys2Proof.Machine.execAttest mbx seq s
  | .powerState mbx seq => Sys2Proof.Machine.execPowerState mbx seq s
  | .lifecycleSet mbx seq => Sys2Proof.Machine.execLifecycleSet mbx seq s
  | .keyProvision mbx seq => Sys2Proof.Machine.execKeyProvision mbx seq s
  | .unknownOpcodeRefusal mbx opcode seq => Sys2Proof.Machine.execUnknownOpcodeRefusal mbx opcode seq s
  | .doorbellCollision mbx value => Sys2Proof.Machine.execDoorbellCollision mbx value s
  | .mbxSqTailWrite value => Sys2Proof.Machine.execMbxSqTailWrite value s
  | .ringHeadWrite ring value => Sys2Proof.Machine.execRingHeadWrite ring value s
  | .alarmStickyClear m value => Sys2Proof.Machine.execAlarmStickyClear m value s
  | .firstFaultUnfreeze value => Sys2Proof.Machine.execFirstFaultUnfreeze value s
  | .registerWrite offset width value => Sys2Proof.Machine.execRegisterWrite offset width value s
  | .registerLoRead offset width => Sys2Proof.Machine.execRegisterLoRead offset width s
  | .bar2Read addr len => Sys2Proof.Machine.execBar2Read addr len s
  | .bar2Write addr bytes => Sys2Proof.Machine.execBar2Write addr bytes s
  | .submissionEntry => Sys2Proof.Machine.execSubmissionEntry s
  | .functionLevelReset => Sys2Proof.Machine.execFunctionLevelReset s
  | .d3hotEntry => Sys2Proof.Machine.execD3hotEntry s
  | .msiXMessage vector => Sys2Proof.Machine.execMsiXMessage vector s
  | .dieLinkFailure what => Sys2Proof.Machine.execDieLinkFailure what s
  | .dieLinkRetrain trained => Sys2Proof.Machine.execDieLinkRetrain trained s
  | .encoderCount input a b => Sys2Proof.Machine.execEncoderCount input a b s
  | .encoderZEdge input => Sys2Proof.Machine.execEncoderZEdge input s
  | .encoderFaultInput input => Sys2Proof.Machine.execEncoderFaultInput input s
  | .encoderCapture => Sys2Proof.Machine.execEncoderCapture s
  | .encoderRedundantCompare => Sys2Proof.Machine.execEncoderRedundantCompare s
  | .lineStateEvaluation => Sys2Proof.Machine.execLineStateEvaluation s
  | .virtualAdvance => Sys2Proof.Machine.execVirtualAdvance s
  | .lineTick => Sys2Proof.Machine.execLineTick s
  | .lineMessageSample => Sys2Proof.Machine.execLineMessageSample s
  | .lineMessageReceive link g m v st reverse count => Sys2Proof.Machine.execLineMessageReceive link g m v st reverse count s
  | .lineMessageApply => Sys2Proof.Machine.execLineMessageApply s
  | .lineMsgTimeout => Sys2Proof.Machine.execLineMsgTimeout s
  | .syncEdge => Sys2Proof.Machine.execSyncEdge s
  | .syncTimeout => Sys2Proof.Machine.execSyncTimeout s
  | .jobLaunch => Sys2Proof.Machine.execJobLaunch s
  | .listTriggering => Sys2Proof.Machine.execListTriggering s
  | .signalApply => Sys2Proof.Machine.execSignalApply s
  | .waitLimitExpiry item => Sys2Proof.Machine.execWaitLimitExpiry item s
  | .engineGet engine => Sys2Proof.Machine.execEngineGet engine s
  | .itemCompletion item => Sys2Proof.Machine.execItemCompletion item s
  | .releasedItemReady => Sys2Proof.Machine.execReleasedItemReady s
  | .releaseDeadline channel => Sys2Proof.Machine.execReleaseDeadline channel s
  | .nop item => Sys2Proof.Machine.execNop item s
  | .jobEvent item => Sys2Proof.Machine.execJobEvent item s
  | .signal item => Sys2Proof.Machine.execSignal item s
  | .wait item => Sys2Proof.Machine.execWait item s
  | .delayInsert item => Sys2Proof.Machine.execDelayInsert item s
  | .delayCancel item => Sys2Proof.Machine.execDelayCancel item s
  | .epochCommit item => Sys2Proof.Machine.execEpochCommit item s
  | .epochApply item => Sys2Proof.Machine.execEpochApply item s
  | .deltaInject item => Sys2Proof.Machine.execDeltaInject item s
  | .edgeRead item => Sys2Proof.Machine.execEdgeRead item s
  | .search item => Sys2Proof.Machine.execSearch item s
  | .darn item => Sys2Proof.Machine.execDarn item s
  | .structureLoad item => Sys2Proof.Machine.execStructureLoad item s
  | .ease item => Sys2Proof.Machine.execEase item s
  | .qpSolve item => Sys2Proof.Machine.execQpSolve item s
  | .lsqFitClearAccumulate item => Sys2Proof.Machine.execLsqFitClearAccumulate item s
  | .lsqFitAccumulate item => Sys2Proof.Machine.execLsqFitAccumulate item s
  | .lsqFitSolve item => Sys2Proof.Machine.execLsqFitSolve item s
  | .networkSegment item => Sys2Proof.Machine.execNetworkSegment item s
  | .matmul item => Sys2Proof.Machine.execMatmul item s
  | .topk item => Sys2Proof.Machine.execTopk item s
  | .topkMerge item => Sys2Proof.Machine.execTopkMerge item s
  | .frameTake item => Sys2Proof.Machine.execFrameTake item s
  | .frameTakeTimeout item => Sys2Proof.Machine.execFrameTakeTimeout item s
  | .frameReturn item => Sys2Proof.Machine.execFrameReturn item s
  | .goldenInject item => Sys2Proof.Machine.execGoldenInject item s
  | .checkB item => Sys2Proof.Machine.execCheckB item s
  | .stitch item => Sys2Proof.Machine.execStitch item s
  | .hold item => Sys2Proof.Machine.execHold item s
  | .copy item => Sys2Proof.Machine.execCopy item s
  | .fill item => Sys2Proof.Machine.execFill item s
  | .gather item => Sys2Proof.Machine.execGather item s
  | .setpointSend item => Sys2Proof.Machine.execSetpointSend item s
  | .correctionSend item => Sys2Proof.Machine.execCorrectionSend item s
  | .deltaBroadcast item => Sys2Proof.Machine.execDeltaBroadcast item s
  | .candSend item => Sys2Proof.Machine.execCandSend item s
  | .candGather item => Sys2Proof.Machine.execCandGather item s
  | .gatherLimitExpiry item => Sys2Proof.Machine.execGatherLimitExpiry item s
  | .kernel item => Sys2Proof.Machine.execKernel item s
  | .rotationCount => Sys2Proof.Machine.execRotationCount s
  | .recount => Sys2Proof.Machine.execRecount s
  | .recountOverflowSweep => Sys2Proof.Machine.execRecountOverflowSweep s
  | .fullCount => Sys2Proof.Machine.execFullCount s
  | .recountOverdue => Sys2Proof.Machine.execRecountOverdue s
  | .sliceBoundary => Sys2Proof.Machine.execSliceBoundary s
  | .obsSourceTimeout port => Sys2Proof.Machine.execObsSourceTimeout port s
  | .peerSourceTimeout link => Sys2Proof.Machine.execPeerSourceTimeout link s
  | .frameStart port vc number ecc => Sys2Proof.Machine.execFrameStart port vc number ecc s
  | .csiLongPacket port vc dataType wordCount payload crcOk ecc => Sys2Proof.Machine.execCsiLongPacket port vc dataType wordCount payload crcOk ecc s
  | .frameEnd port vc number ecc => Sys2Proof.Machine.execFrameEnd port vc number ecc s
  | .frameMaxTimeout port => Sys2Proof.Machine.execFrameMaxTimeout port s
  | .ffmDecision port => Sys2Proof.Machine.execFfmDecision port s
  | .fpTransmitOpportunity port => Sys2Proof.Machine.execFpTransmitOpportunity port s
  | .timeFrameDue port => Sys2Proof.Machine.execTimeFrameDue port s
  | .setpointLateDiscard port => Sys2Proof.Machine.execSetpointLateDiscard port s
  | .fpFrameReceive port frame fcsOk => Sys2Proof.Machine.execFpFrameReceive port frame fcsOk s
  | .fpFeedbackTimeout port node => Sys2Proof.Machine.execFpFeedbackTimeout port node s
  | .plcaCoordinatorLost port => Sys2Proof.Machine.execPlcaCoordinatorLost port s
  | .plcaResume port => Sys2Proof.Machine.execPlcaResume port s
  | .plLinkTraining link far => Sys2Proof.Machine.execPlLinkTraining link far s
  | .plRetryLimit link => Sys2Proof.Machine.execPlRetryLimit link s
  | .plRetrainRetry link far => Sys2Proof.Machine.execPlRetrainRetry link far s
  | .plCreditTimeout link vc => Sys2Proof.Machine.execPlCreditTimeout link vc s
  | .deltaMessage link tag more records => Sys2Proof.Machine.execDeltaMessage link tag more records s
  | .fullStateReq link => Sys2Proof.Machine.execFullStateReq link s
  | .fullState link tag entries => Sys2Proof.Machine.execFullState link tag entries s
  | .candMessage link tag list => Sys2Proof.Machine.execCandMessage link tag list s
  | .configMessage link slicePeriod slicePhase pitch sig => Sys2Proof.Machine.execConfigMessage link slicePeriod slicePhase pitch sig s
  | .peerConfigTimeout link => Sys2Proof.Machine.execPeerConfigTimeout link s
  | .eccWriteBack => Sys2Proof.Machine.execEccWriteBack s
  | .correctionWindowEnd => Sys2Proof.Machine.execCorrectionWindowEnd s
  | .autoRepair => Sys2Proof.Machine.execAutoRepair s
  | .mcRequestPromotion => Sys2Proof.Machine.execMcRequestPromotion s
  | .safeReqAssert => Sys2Proof.Machine.execSafeReqAssert s
  | .safeReqRelease => Sys2Proof.Machine.execSafeReqRelease s
  | .safeOkReadback p n => Sys2Proof.Machine.execSafeOkReadback p n s
  | .coverageEvaluation => Sys2Proof.Machine.execCoverageEvaluation s
  | .selftestSliceStart target => Sys2Proof.Machine.execSelftestSliceStart target s
  | .selftestSliceEnd target pass => Sys2Proof.Machine.execSelftestSliceEnd target pass s
  | .watchdogExpiry core => Sys2Proof.Machine.execWatchdogExpiry core s
  | .ccCoreReady core => Sys2Proof.Machine.execCcCoreReady core s
  | .tamperEvent source => Sys2Proof.Machine.execTamperEvent source s
  | .thimbleWipeDone => Sys2Proof.Machine.execThimbleWipeDone s
  | .porstAssert => Sys2Proof.Machine.execPorstAssert s
  | .wake straps gib => Sys2Proof.Machine.execWake straps gib s
  | .powerOffSwitch => Sys2Proof.Machine.execPowerOffSwitch s
  | .encoderFaultInputRelease input => Sys2Proof.Machine.execEncoderFaultInputRelease input s
  | .encoderOverspeedEnd => Sys2Proof.Machine.execEncoderOverspeedEnd s
  | .d3hotExit => Sys2Proof.Machine.execD3hotExit s
  | .powerRemoval aonLost => Sys2Proof.Machine.execPowerRemoval aonLost s
  | .plFlitReceive link flit => Sys2Proof.Machine.execPlFlitReceive link flit s
  | .csiShortPacket port vc dataType ecc => Sys2Proof.Machine.execCsiShortPacket port vc dataType ecc s

end Sys2Proof.Machine
end

