-- ==== Sys2Proof/Machine/Flags.lean ====
section
/-!
DEFINITION. The flags of the block.  It has no arithmetic status register; its flags are the bits of MBX_n_STATUS and of the summary
and status registers, which Machine/Registers.lean computes from the state.  Here stand the few that statements name.
-/

namespace Sys2Proof.Machine

open Sys2Proof

/-- BUSY, DONE and COLLISION of a mailbox (R420, R422). -/
def State.mailboxFlags (s : State) (n : Nat) : Bool × Bool × Bool := ((s.box n).busy, (s.box n).done, (s.box n).collision)

/-- A class of the alarm table is sticky (R437). -/
def State.alarmSet (s : State) (code : Nat) : Bool := (s.alarm? (alarmClass code)).isSome

end Sys2Proof.Machine
end

