-- ==== Sys2Proof/Safety.lean ====
section
/-!
DEFINITION. What counts as a safe step, and the conditions on a state that statements name: no job being disarmed, a mailbox at rest, and the
state in which the command of a mailbox at rest starts.
-/

namespace Sys2Proof.Machine

open Sys2Proof

/-- The step of a state answers a next state. -/
def State.stepsSafely (s : State) : Bool :=
  match step s with
  | .next _ => true
  | .fault _ => false
  | .refused _ => false

/-- No job is DISARMING (R65). -/
def State.quiet (s : State) : Bool :=
  s.jobs.all fun j => match j with
    | some j => j.state != .disarming
    | none => true

/-- No job but the one in a slot is ARMED, RUNNING or DISARMING (R65). -/
def State.onlyActive (s : State) (slot : Nat) : Bool :=
  (List.range 4).all fun i => i == slot || (match s.jobIn i with | some j => j.state == .defined | none => true)

/-- Mailbox n is at rest: the host reaches it, it is not BUSY, no command waits or runs at any mailbox, and commands are served, ATTEST
among them. -/
def State.atRest (s : State) (n : Nat) : Bool :=
  s.hostReaches && decide (n < s.mbx.length) && !(s.box n).busy && s.accepted.isEmpty && s.serialBusy.isNone && s.serves && s.attests

/-- The arguments of mailbox n. -/
def State.arguments (s : State) (n : Nat) : List Nat := (s.box n).args.map (·.toNat)

/-- The state in which a command accepted by mailbox n at rest starts: BUSY, its CLASS and SEQ recorded (R420), and the arithmetic domain
powered where the command needs it (R502). -/
def State.issued (s : State) (n code : Nat) (seq : BitVec 16) : State :=
  match opcodeOf code with
  | some o =>
    { s with
      power := if o.arithmetic && s.power == .idle then .on else s.power
      mbx := upd s.mbx n fun b =>
        { b with busy := true, immediate := o.immediate, seq := seq, opcode := BitVec.ofNat 16 code, started := true, waited := false, met := false } }
  | none => s

/-- Mailbox n is at rest, the firmware or the boot ROM knows the opcode, and no argument bit beyond the named ones is set (R421, R486). -/
def State.takes (s : State) (n code : Nat) : Bool :=
  s.atRest n && (match s.known code with | some o => argsDefined o (s.arguments n) | none => false)

/-- The command answers the state in which mailbox n completes with a record on a state (R422). -/
def State.completes (s : State) (i : Instr) (n : Nat) (c : Completion) (u : State) : Prop :=
  exec i s = .next (settled s (completeMailbox n c u))

/-- The command answers a state that leaves mailbox n BUSY: a SERIAL command holds the serial order (R421). -/
def State.goesOn (s : State) (i : Instr) (u : State) : Prop := exec i s = .next (settled s u)

/-- The word at a key reads as w without a correction: no merge-buffer entry stands over it, and its check bits agree (R389, R405). -/
def State.reads (s : State) (k : Nat) (w : Word) : Bool :=
  s.memCtl.merge.all (·.word != k) && (match s.mem.get k with | some st => decodeStored (s.rowCol k) st == .clean w | none => false)

/-- Successive words that read so. -/
def State.readsAll (s : State) (k : Nat) : List Word → Bool
  | [] => true
  | w :: t => s.reads k w && State.readsAll s (k + 1) t

/-- An object's words as the firmware reads them: no address is reserved (R63). -/
def State.holds (s : State) (k : Nat) (ws : List Word) : Bool :=
  s.readsAll k ws && (List.range ws.length).all fun i => (s.ownerOf (k + i)).isSome

/-- The operation gives its item a result on a state (R110). -/
def State.results (s : State) (i : Instr) (id : Nat) (r : Result) (u : State) : Prop := exec i s = .next (settled s (setResult id r u))

/-- The operation leaves its item running on a state. -/
def State.staysRunning (s : State) (i : Instr) (u : State) : Prop := exec i s = .next (settled s u)

/-- The command gives a state. -/
def State.gives (s : State) (i : Instr) (u : State) : Prop := exec i s = .next (settled s u)

/-- Each entry of a list is a work item of one triggering (R91, R92). -/
def State.hasItems (t : State) (slot : Nat) (j : Job) (x : Triggering) (trig : BitVec 32) (es : List Entry) : Prop :=
  ∀ i e, es[i]? = some e → ∃ it ∈ t.shu.items, it.slot = slot ∧ it.jobId = j.id ∧ it.service = x.service ∧ it.list = x.list ∧ it.index = i ∧
    it.entry = e ∧ it.trig = trig ∧ it.tag = x.tag ∧ it.sheet = x.sheet ∧ it.result = none

/-- What burned fuses keep (R505): the items of the factory stand, a digest once burned stands, the fuses of the minimum SVN only grow in number,
and the field repair bank only grows. -/
structure FuseMap.Keeps (a b : FuseMap) : Prop where
  serial : b.serial = a.serial
  stepping : b.stepping = a.stepping
  secret : b.secret = a.secret
  returnKey : b.returnKey = a.returnKey
  factoryRepairs : b.factoryRepairs = a.factoryRepairs
  fwKey : ∀ d, a.fwKey = some d → b.fwKey = some d
  patternKeys : ∀ (i : Nat) d, a.patternKeys[i]? = some (some d) → b.patternKeys[i]? = some (some d)
  svnMin : a.svnMin ≤ b.svnMin
  fieldRepairs : a.fieldRepairs <+: b.fieldRepairs

end Sys2Proof.Machine
end

