-- ==== Sys2Proof/Certificates/Slice0/Obligations.lean ====
section
/-!
DEFINITION. The statements for the provers.  Each says what it states in its docstring, with the rule of the manual that it formalises.
A result is stated as the state that the command answers; `settled s t` is t with the queue, the grade, the board position, the Global
Counter and the Fuse Map of s, once a disarm that has run its course has settled (SettlingIsTheEndOfADisarm).
-/

open Sys2Proof Sys2Proof.Machine

/-! ## The machine as a whole -/

/-- A step on a queue with a command at its front is that command on the state with the queue's rest. -/
def Obligations.StepRunsTheFrontCommand : Prop :=
  ∀ (c : Instr) (rest : List Instr) (s : State), step { s with pending := c :: rest } = exec c { s with pending := rest }

/-- On an empty queue the Global Counter advances by 1 ns while the compute die is awake (R53; the model's choice, log 14); where no disarm and no burn
comes to its end, the firmware has nothing to log, the copies of the Safety Manager agree, no redundant class is without an instance and no test window
stands, nothing else changes but the rest of
a SYNC pulse, the sensors of LCC_TEMP and LCC_POWER_EST at every 1 ms, of which [31:16] holds the highest value so far (R492), and the free draws of
that ns (logs 58 and 69).  A device that is Off stays as it is. -/
def Obligations.EmptyQueueTicks : Prop :=
  ∀ s : State, s.pending = [] →
    (s.awake = true → ∃ t, step s = .next t ∧ t.gcnt = s.gcnt + 1 ∧ t.pending = []) ∧
    (s.awake = true → s.quiet = true → s.lcc.burn = none → s.note = none → s.upset ≠ some .managerCopy → s.emptyClass = none → s.testWindow = none →
      (s.now + 1) % 1000000 ≠ 0 → step s = .next { s with
        gcnt := s.gcnt + 1, line.syncLow := s.line.syncLow - 1, upset := Config.upset s.freeCount, note := Config.firmwareNote s.freeCount,
        freeCount := s.freeCount + 1 }) ∧
    (s.awake = true → (s.now + 1) % 1000000 = 0 → ∃ t, step s = .next t ∧
      (t.lcc.temp.extractLsb' 16 16).toInt = max (s.lcc.temp.extractLsb' 16 16).toInt (t.lcc.temp.extractLsb' 0 16).toInt) ∧
    (s.awake = false → step s = .next s)

/-- A step takes the front of the queue and changes nothing behind it; the grade never changes (R2). -/
def Obligations.QueueIsFirstInFirstOut : Prop :=
  ∀ s t : State, step s = .next t → t.pending = s.pending.tail ∧ t.grade = s.grade

/-- No command changes the Global Counter but a SYNC edge, which loads a value ahead of it, and a wake or a loss of power, after which it is 0
(R53).  That a command takes no time of its own is the model's choice (log 18). -/
def Obligations.GlobalCounterStandsUnderCommands : Prop :=
  ∀ (c : Instr) (s t : State), exec c s = .next t →
    match c with
    | .syncEdge => t.gcnt = s.gcnt ∨ ∃ a ∈ s.line.syncArm, s.now < a.value ∧ t.gcnt = BitVec.ofNat 64 a.value
    | .wake _ _ | .powerOffSwitch => t.gcnt = s.gcnt ∨ t.gcnt = 0
    | .porstAssert | .powerRemoval _ => t.gcnt = 0
    | _ => t.gcnt = s.gcnt

/-- While the compute die is Off no command has an effect but the wake, PORST_N and the loss of power (R501). -/
def Obligations.OffIsInert : Prop :=
  ∀ (c : Instr) (s : State), s.power = .off →
    match c with
    | .wake _ _ | .porstAssert | .powerOffSwitch | .powerRemoval _ => True
    | _ => exec c s = .next s

/-- A fuse, once burned, is never cleared (R505): whatever is known to be burned before a step is burned after it, for every state and every
command. -/
def Obligations.BurnedFusesStand : Prop :=
  ∀ (f : FuseMap) (s t : State), f.Keeps s.lcc.fuses → step s = .next t → f.Keeps t.lcc.fuses

/-- A step leaves the life-cycle state as it is, or brings into force the state of a LIFECYCLE_SET whose burn has ended (R508). -/
def Obligations.LifeCycleMovesOnlyByTransition : Prop :=
  ∀ s t : State, step s = .next t →
    t.lcc.fuses.lifeCycle = s.lcc.fuses.lifeCycle ∨ ∃ n, s.lcc.transition = some (n, t.lcc.fuses.lifeCycle)

/-- What settles after a command: nothing in a state without a DISARMING job; else, once no work item is left, the job is DEFINED and its JOB_DISARM
completes (R67). -/
def Obligations.SettlingIsTheEndOfADisarm : Prop :=
  (∀ s t : State, t.quiet = true →
    settled s t = { t with pending := s.pending, grade := s.grade, boardPos := s.boardPos, gcnt := s.gcnt, lcc.fuses := s.lcc.fuses }) ∧
  (∀ (s t : State) (slot : Nat) (j : Job), t.activeJob = some (slot, j) → j.state = .disarming → t.shu.items = [] → t.disarming = none →
    settled s t = { t.setJob slot (fun x => { x with state := .defined }) with
      pending := s.pending, grade := s.grade, boardPos := s.boardPos, gcnt := s.gcnt, lcc.fuses := s.lcc.fuses }) ∧
  (∀ (s t : State) (slot : Nat) (j : Job), t.activeJob = some (slot, j) → j.state = .disarming → t.shu.items ≠ [] →
    settled s t = { t with pending := s.pending, grade := s.grade, boardPos := s.boardPos, gcnt := s.gcnt, lcc.fuses := s.lcc.fuses })

/-- The operations of the engines leave jobs, blocks, claims, mailboxes, firmware, Pattern, power and life cycle alone: what they change lies in the
memories, the reports and their engines' own state (R78).  EPOCH_COMMIT alone changes of the jobs the priority maps that wait (R18, R489). -/
def Obligations.OperationsKeepToTheirEngines : Prop :=
  ∀ (s : State) (id : Nat) (c : Instr),
    c ∈ [.jobEvent id, .delayInsert id, .delayCancel id, .epochCommit id, .epochApply id, .deltaInject id, .edgeRead id, .search id, .darn id,
         .structureLoad id, .ease id, .qpSolve id, .lsqFitClearAccumulate id, .lsqFitAccumulate id, .lsqFitSolve id, .networkSegment id,
         .matmul id, .topk id, .topkMerge id, .frameTake id, .frameReturn id, .goldenInject id, .checkB id, .stitch id, .hold id, .copy id,
         .fill id, .gather id, .setpointSend id, .correctionSend id, .deltaBroadcast id, .candSend id, .candGather id, .kernel id] →
    s.awake = true →
    ∃ u, exec c s = .next (settled s u) ∧ (c ≠ .epochCommit id → u.jobs = s.jobs) ∧
      (∀ n, (u.jobIn n).map (fun j => { j with priorities := [] }) = (s.jobIn n).map fun j => { j with priorities := [] }) ∧ u.devBlocks = s.devBlocks ∧ u.claims = s.claims ∧ u.mbx = s.mbx ∧
      u.accepted = s.accepted ∧ u.fw = s.fw ∧ u.pat = s.pat ∧ u.power = s.power ∧ u.lcc = s.lcc ∧ u.hiLatches = s.hiLatches

/-- An operation commanded for an item that is not RUNNING under its opcode, or that has its result already, changes nothing but what settles: the
model's choice (log 19), for R78 names no such command. -/
def Obligations.OperationsNeedTheirItem : Prop :=
  ∀ (s : State) (id : Nat) (c : Instr) (op : Nat),
    (c, op) ∈ [(Instr.jobEvent id, 0x0102), (.delayInsert id, 0x0203), (.delayCancel id, 0x0204), (.epochCommit id, 0x0301),
      (.epochApply id, 0x0302), (.deltaInject id, 0x0303), (.edgeRead id, 0x0304), (.search id, 0x0401), (.darn id, 0x0402),
      (.structureLoad id, 0x0501), (.ease id, 0x0502), (.qpSolve id, 0x0503), (.lsqFitClearAccumulate id, 0x0504),
      (.lsqFitAccumulate id, 0x0504), (.lsqFitSolve id, 0x0504), (.networkSegment id, 0x0601), (.matmul id, 0x0602), (.topk id, 0x0701),
      (.topkMerge id, 0x0702), (.frameTake id, 0x0801), (.frameReturn id, 0x0802), (.goldenInject id, 0x0803), (.checkB id, 0x0901),
      (.stitch id, 0x0902), (.hold id, 0x0903), (.copy id, 0x0A01), (.fill id, 0x0A02), (.gather id, 0x0A03), (.setpointSend id, 0x0B01),
      (.correctionSend id, 0x0B02), (.deltaBroadcast id, 0x0B03), (.candSend id, 0x0B03), (.candGather id, 0x0B03), (.kernel id, 0x0C01)] →
    s.awake = true → s.runningItem id op = none → exec c s = .next (settled s s)

/-! ## Mailboxes -/

/-- An opcode that the firmware does not know completes REFUSED with 0x0115; while the boot ROM runs every opcode but FW_LOAD is unknown (R421).
Such a command counts as IMMEDIATE: the model's choice (log 22). -/
def Obligations.UnknownOpcodeIsRefused : Prop :=
  (∀ (n : Fin 4) (op q : BitVec 16) (s : State), s.atRest n = true → s.known op.toNat = none →
    s.completes (.unknownOpcodeRefusal n op q) n { status := .refused, reason := 0x0115 }
      { s with mbx := upd s.mbx n fun b => { b with busy := true, immediate := true, seq := q, opcode := op, started := true, waited := false } }) ∧
  (∀ (s : State) (op : BitVec 16), s.fw.stage = .bootRom → op ≠ 0x0C01 → s.known op.toNat = none) ∧
  (∀ (s : State) (op : BitVec 16), op ∉ [0x0101, 0x0102, 0x0103, 0x0104, 0x0105, 0x0106, 0x0107, 0x0108, 0x0109, 0x0301, 0x0302, 0x0601, 0x0901,
    0x0A01, 0x0A02, 0x0A03, 0x0A04, 0x0B01, 0x0B02, 0x0C01, 0x0C02, 0x0C03, 0x0C04, 0x0C05, 0x0C06] → s.known op.toNat = none)

/-- A set bit outside the named arguments refuses every command with 0x0105 before any other check (R486): the state is that of the acceptance, but that
of an FW_LOAD LAST_FAIL takes the reason (R432); the record names the job of ARG0 where the command names one, and the service of a SERVICE_PRIORITY (R487). -/
def Obligations.UndefinedArgumentBitsAreRefused : Prop :=
  ∀ (n : Fin 4) (q : BitVec 16) (s : State) (c : Instr) (code : Nat) (o : Opcode),
    (c, code) ∈ [(Instr.jobDefine n q, 0x0101), (.jobDelete n q, 0x0102), (.tableLoad n q, 0x0103), (.listLoad n q, 0x0104),
      (.configWrite n q, 0x0105), (.jobArm n q, 0x0106), (.jobDisarm n q, 0x0107), (.channelGoal n q, 0x0108), (.servicePriority n q, 0x0109),
      (.patternInstall n q, 0x0301), (.patternRetire n q, 0x0302), (.networkLoad n q, 0x0601), (.safetyResume n q, 0x0901),
      (.memoryMode n q, 0x0A01), (.memFlipArm n q, 0x0A02), (.memRepair n q, 0x0A03), (.moveEngineResume n q, 0x0A04),
      (.lineReference n q, 0x0B01), (.syncAlign n q, 0x0B02), (.fwLoad n q, 0x0C01), (.traceControl n q, 0x0C02), (.attest n q, 0x0C03),
      (.powerState n q, 0x0C04), (.lifecycleSet n q, 0x0C05), (.keyProvision n q, 0x0C06)] →
    s.atRest n = true → s.known code = some o → argsDefined o (s.arguments n) = false →
    let job : BitVec 16 :=
      if code ∈ [0x0102, 0x0103, 0x0104, 0x0106, 0x0107, 0x0108, 0x0109, 0x0601] then BitVec.ofNat 16 (arg (s.arguments n) 0) else 0xFFFF
    let service := if code = 0x0109 then bits (arg (s.arguments n) 0) 16 6 else 0
    s.completes c n { status := .refused, reason := 0x0105, job := job, service := service }
      { s with
        mbx := upd s.mbx n fun b =>
          { b with busy := true, immediate := o.immediate, seq := q, opcode := BitVec.ofNat 16 code, started := true, waited := false }
        fw.lastFail := if code = 0x0C01 then 0x0105 else s.fw.lastFail }

/-- A doorbell write while BUSY is dropped and sets COLLISION, whatever it says; another is the doorbell
 of the OPCODE in [15:0] with the SEQ in [31:16] (R420, R486). -/
def Obligations.DoorbellWhileBusy : Prop :=
  (∀ (n : Fin 4) (v : Reg) (s : State), s.hostReaches = true → (s.box n).busy = true →
    exec (.doorbellCollision n v) s = .next (settled s { s with mbx := upd s.mbx n fun b => { b with collision := true } })) ∧
  (∀ (n : Fin 4) (op q : BitVec 16) (s : State), s.hostReaches = true → (s.box n).busy = true →
    exec (.unknownOpcodeRefusal n op q) s = .next (settled s { s with mbx := upd s.mbx n fun b => { b with collision := true } })) ∧
  (∀ (n : Fin 4) (v : Reg) (s : State),
    exec (.doorbellCollision n v) s = exec (.unknownOpcodeRefusal n (v.setWidth 16) ((v >>> 16).setWidth 16)) s)

/-- At completion the record stands in RESULT and at TAIL of the completion ring, BUSY is 0, DONE is 1 and the mailbox vector is due; the other
mailboxes stand, and a full ring drops the record and counts it (R422, R425). -/
def Obligations.CompletionOfACommand : Prop :=
  ∀ (n : Nat) (c : Completion) (s : State), n < s.mbx.length → s.memCtl.flip = none →
    let t := completeMailbox n c s
    let k := cqBase + s.rings.cq.tail.toNat % cqSize
    t.box n = { s.box n with busy := false, done := true, started := false, result := c.word s.gcnt } ∧
    (∀ m, m ≠ n → t.box m = s.box m) ∧
    (s.rings.cq.fill ≠ cqSize → t.rings = { s.rings with cq.tail := s.rings.cq.tail + 1 } ∧
      t.mem = s.mem.put k (some (encodeWord (s.rowCol k) (c.word s.gcnt))) ∧ t.link = (dueVector 4 (dueVector 0 s)).link) ∧
    (s.rings.cq.fill = cqSize → t.rings = { s.rings with cq := s.rings.cq.drop 65535 s.gcnt 0 } ∧ t.mem = s.mem ∧
      t.link = (dueVector 4 s).link)

/-- JOB_DEFINE: a JOB object that reads well places its job, DEFINED and empty, in the free slot of ARG0, and nothing else changes; an occupied
slot, or BLANK and SCRAPPED, refuse with 0x0112 (R65, R476, R507).  The record names no service (R487).  That the header's SERVICE_ID and SERVICE_TYPE may
hold any value is the model's choice (log 44). -/
def Obligations.JobDefine : Prop :=
  ∀ (n : Fin 4) (q : BitVec 16) (s : State), s.takes n 0x0101 = true →
    let a := s.arguments n
    let u := s.issued n 0x0101 q
    let slot := bits (arg a 0) 0 2
    (s.jobsAllowed = false ∨ (s.jobIn slot).isSome = true →
      s.completes (.jobDefine n q) n { status := .refused, reason := 0x0112 } u) ∧
    (∀ (h det launch : Word), s.jobsAllowed = true → s.jobIn slot = none →
      argAddr a 1 % 32 = 0 → 3 ≤ arg a 3 → arg a 3 ≠ 0xFFFFFFFF → s.holds (argAddr a 1 / 32) [h, det, launch] = true →
      h.toNat = 0x0000000300010001 + 2 ^ 64 * bits h.toNat 64 24 + 2 ^ 88 * bits h.toNat 88 8 + 2 ^ 97 * bits h.toNat 97 1 →
      bits h.toNat 64 16 ≠ 0xFFFF → bits det.toNat 224 32 = 0 → launchOk launch = true → s.jobById (bits h.toNat 64 16) = none →
      s.completes (.jobDefine n q) n { job := BitVec.ofNat 16 (bits h.toNat 64 16) }
        { u with jobs := upd u.jobs slot fun _ => some {
            id := BitVec.ofNat 16 (bits h.toNat 64 16), state := .defined, reproducible := bits h.toNat 97 1 == 1, seed0 := det.setWidth 64,
            seed1 := (det >>> 64).setWidth 64, digestKey := (det >>> 128).setWidth 64, stepBase := (det >>> 192).setWidth 32,
            launch := launch, buffers := [], lists := [], blocks := [], networks := [], priorities := [], launchAt := 0, triggered := [] } })

/-- JOB_DELETE frees the slot of a DEFINED job and drops its claims; in any other state, and for an unknown job, it is refused with 0x0112 and the
job is unchanged (R65).
JOB_DISARM (R65, R67): a job that is neither ARMED nor RUNNING, and has no arm under way, is refused with 0x0112; an ARMED job is DEFINED again, its
triggerings dropped; a RUNNING job with a work item at an engine is DISARMING and its mailbox stays BUSY. -/
def Obligations.JobDeleteAndDisarm : Prop :=
  (∀ (n : Fin 4) (q : BitVec 16) (s : State), s.takes n 0x0102 = true →
     let id := BitVec.ofNat 16 (arg (s.arguments n) 0)
     let u := s.issued n 0x0102 q
     (s.jobById id.toNat = none → s.completes (.jobDelete n q) n { status := .refused, reason := 0x0112, job := id } u) ∧
     (∀ slot j, s.jobById id.toNat = some (slot, j) →
       (j.state ≠ .defined → s.completes (.jobDelete n q) n { status := .refused, reason := 0x0112, job := id } u) ∧
       (j.state = .defined → s.completes (.jobDelete n q) n { job := id }
         { u with jobs := upd u.jobs slot fun _ => none, claims := u.claims.filter fun c => c.owner.job != id }))) ∧
  (∀ (n : Fin 4) (q : BitVec 16) (s : State), s.takes n 0x0107 = true → s.arming = none →
     let id := BitVec.ofNat 16 (arg (s.arguments n) 0)
     let u := s.issued n 0x0107 q
     (∀ slot j, s.jobById id.toNat = some (slot, j) →
       (j.state = .defined ∨ j.state = .disarming →
         s.completes (.jobDisarm n q) n { status := .refused, reason := 0x0112, job := id } u) ∧
       (j.state = .armed → s.onlyActive slot = true → s.shu.items = [] → s.line.lists = [[], [], [], []] →
         s.completes (.jobDisarm n q) n { job := id }
           { u with jobs := upd u.jobs slot (·.map fun j => { j with state := .defined }),
                    shu.triggerings := [], shu.signals := u.shu.signals.filter (·.item.isSome) }) ∧
       (j.state = .running → s.onlyActive slot = true → s.shu.cycles = [] → s.line.lists = [[], [], [], []] →
         s.shu.items ≠ [] → (∀ it ∈ s.shu.items, it.phase = .running ∧ it.pool = .none) →
         s.goesOn (.jobDisarm n q)
           { u with jobs := upd u.jobs slot (·.map fun j => { j with state := .disarming }), disarming := some (n.val, slot),
                    shu.triggerings := [], shu.signals := u.shu.signals.filter (·.item.isSome) })) ∧
     (s.jobById id.toNat = none → s.completes (.jobDisarm n q) n { status := .refused, reason := 0x0112, job := id } u))

/-- JOB_ARM (R66): an unknown job, one that is not DEFINED, another active job and Maintenance mode refuse with 0x0112; a job without services, lists and
buffers is ARMED with its launch count, every engine's counters cleared (whether a channel's last release was a hold stands, R368), where the count is 0 or lies 100 µs ahead (R57), and is refused with 0x0B4F
where it lies nearer.
JOB_ARM ends in one of three ways: the job is ARMED and the command completes OK, it goes on and waits for the CONFIG of
its peers, or it completes with a failed check (R66, R467). -/
def Obligations.JobArm : Prop :=
  (∀ (n : Fin 4) (q : BitVec 16) (s : State), s.takes n 0x0106 = true → s.jobsAllowed = true →
     let a := s.arguments n
     let id := BitVec.ofNat 16 (arg a 0)
     let launch := argAddr a 1
     let u := s.issued n 0x0106 q
     (s.jobById id.toNat = none → s.completes (.jobArm n q) n { status := .refused, reason := 0x0112, job := id } u) ∧
     (∀ slot j, s.jobById id.toNat = some (slot, j) →
       (j.state ≠ .defined ∨ s.activeJob.isSome = true ∨ s.memCtl.maintenance = true →
         s.completes (.jobArm n q) n { status := .refused, reason := 0x0112, job := id } u) ∧
       (j.state = .defined → s.activeJob = none → s.memCtl.maintenance = false → s.smState = 2 →
         s.completes (.jobArm n q) n { status := .refused, reason := 0x0906, job := id } u) ∧
       (j.state = .defined → s.activeJob = none → s.memCtl.maintenance = false → s.smState ≠ 2 →
         j.blocks = [] → j.lists = [] → j.buffers = [] → j.launch = 0 → s.camerasOf j = [] →
         (∀ b c, s.lineBlock = some b → c ∈ blockClaims b → c ∈ s.claims) →
         (launch = 0 ∨ s.now + 100000 ≤ launch →
           s.completes (.jobArm n q) n { job := id }
             { u with
               jobs := upd u.jobs slot (·.map fun j => { j with state := .armed, launchAt := launch, priorities := [], triggered := [] }),
               shu := { nextItem := u.shu.nextItem, gets := u.shu.gets, kernels := u.shu.kernels }, trc := armTracer u.trc,
               chans := (List.range 16).map fun i => { lastHold := (s.chan i).lastHold }, pse := {}, se := { slots := u.se.slots, resumable := u.se.resumable },
               te := { excluded := u.te.excluded }, tks := {}, fi := armFrames u.fi, sheet := {}, sm := armSeam u.sm,
               pl := { u.pl with gathers := [], ranGathers := [] }, occ := {} }) ∧
         (launch ≠ 0 → launch < s.now + 100000 →
           s.completes (.jobArm n q) n { status := .refused, reason := 0x0B4F, job := id } u)))) ∧
  (∀ (n : Fin 4) (q : BitVec 16) (s : State) (slot : Nat) (j : Job), s.takes n 0x0106 = true → s.jobsAllowed = true →
     let id := BitVec.ofNat 16 (arg (s.arguments n) 0)
     let launch := argAddr (s.arguments n) 1
     s.jobById id.toNat = some (slot, j) →
     (∃ syncs u, s.completes (.jobArm n q) n { job := id } (armAccept slot j syncs launch u)) ∨
     (∃ u x, s.goesOn (.jobArm n q) u ∧ u.arming = some x ∧ x.mbx = n.val ∧ x.slot = slot ∧ x.launch = launch) ∨
     (∃ f u, s.completes (.jobArm n q) n (Fail.completion f id) u))

/-- TABLE_LOAD: a buffer table that reads well, whose buffers have a length, lie aligned in regions of the job's slot and overlap nowhere, takes the
place of the job's table; nothing else changes (R72, R73).  A job that is unknown or not DEFINED is refused with 0x0112.  The record names no service and no
entry (R487).  That the header's SERVICE_ID and SERVICE_TYPE are not checked is the model's choice (log 44). -/
def Obligations.TableLoad : Prop :=
  ∀ (n : Fin 4) (q : BitVec 16) (s : State), s.takes n 0x0103 = true →
    let a := s.arguments n
    let u := s.issued n 0x0103 q
    (definedJob a s = none →
      s.completes (.tableLoad n q) n { status := .refused, reason := 0x0112, job := BitVec.ofNat 16 (arg a 0) } u) ∧
    (∀ (slot : Nat) (j : Job) (h : Word) (ws : List Word), definedJob a s = some (slot, j) →
      (∀ b, j.blockOf 0x12 = some b → bitmapReaders { j with buffers := ws.map bufferOf } b = .ok ()) →
      argAddr a 1 % 32 = 0 → ws.length + 1 ≤ arg a 3 → arg a 3 < 0xFFFFFFFF → 1 ≤ ws.length → ws.length ≤ 4096 →
      s.holds (argAddr a 1 / 32) (h :: ws) = true →
      h.toNat = 0x00010004 + 2 ^ 32 * (ws.length + 1) + 2 ^ 64 * j.id.toNat + 2 ^ 80 * bits h.toNat 80 16 + 2 ^ 128 * ws.length →
      (∀ w ∈ ws, Word.get w 64 32 ≠ 0xFFFFFFFF ∧ Word.get w 64 32 ≠ 0 ∧ Word.get w 102 26 = 0 ∧ Word.get w 192 64 = 0) →
      placeBuffers u slot [] (ws.map bufferOf) = .ok () →
      s.completes (.tableLoad n q) n { job := j.id }
        (u.setJob slot fun x => { x with buffers := ws.map bufferOf }))

/-- LIST_LOAD: a list that reads well and passes every test of R85 takes the place of the list of its number in its service; nothing else changes
(R74).  Of the tests only those of a NETWORK_SEGMENT whose network is loaded read memory; the second clause takes each network as not yet loaded, the third
takes the tests as they run, with what their reads change. -/
def Obligations.ListLoad : Prop :=
  ∀ (n : Fin 4) (q : BitVec 16) (s : State), s.takes n 0x0104 = true →
    let a := s.arguments n
    let u := s.issued n 0x0104 q
    (definedJob a s = none →
      s.completes (.listLoad n q) n { status := .refused, reason := 0x0112, job := BitVec.ofNat 16 (arg a 0) } u) ∧
    (∀ (slot : Nat) (j : Job) (h : Word) (ws : List Word) (count : Nat), definedJob a s = some (slot, j) →
      ws.length = 2 * count → 1 ≤ count → count ≤ 16384 →
      argAddr a 1 % 32 = 0 → ws.length + 1 ≤ arg a 3 → arg a 3 < 0xFFFFFFFF → s.holds (argAddr a 1 / 32) (h :: ws) = true →
      h.toNat = 0x00010003 + 2 ^ 32 * (ws.length + 1) + 2 ^ 64 * j.id.toNat + 2 ^ 80 * bits h.toNat 80 16 + 2 ^ 128 * count →
      let c : ListCtx := { job := j, service := bits h.toNat 80 8, serviceType := bits h.toNat 88 8, number := bits (arg a 0) 16 8, atArm := false,
                           entries := entriesOf ws }
      let others := j.lists.filter fun l => !(l.service == c.service && l.number == c.number)
      jobLevel c.serviceType = true → c.service < 64 → others.length < 256 → c.typeOk = true →
      let loaded (v : State) : Prop := s.completes (.listLoad n q) n { job := j.id, service := c.service }
        (v.setJob slot fun x => { x with lists := others ++ [⟨c.service, c.number, c.entries⟩] })
      ((∀ e ∈ c.entries, c.network e = none) →
        (∀ (t i : Nat) (e : Entry), c.entries[i]? = some e → entryTest c t i e u = .ok ()) → loaded u) ∧
      (∀ v, runProg (listTests c [2, 3, 5, 6, 7, 8, 9, 10, 11, 12]) u = (v, .ok ()) → loaded v))

/-- CONFIG_WRITE (R5, R69, R70, R86): an enabled block that reads well and passes the tests takes the place of its service's previous block and makes its
claims, and a block with ENABLE 0 takes the place and releases every claim of its service; of a job-level block nothing else changes, and a device-level
block has the effects of putBlock.  Another CONTRACT_VERSION is refused with 0x0103.  An armed device refuses device-level blocks, and a job that is not
DEFINED its own, with 0x0111.  Of the tests only those of a channel's joint fields read memory (R71): the second enabling clause takes the tests as they run,
with what their reads change.  That a block with ENABLE 0 and another version is refused, and stored otherwise without a check, is the model's choice
between R5 and R70 (log 67). -/
def Obligations.ConfigWrite : Prop :=
  ∀ (n : Fin 4) (q : BitVec 16) (s : State) (h : Word), s.takes n 0x0105 = true →
    let a := s.arguments n
    let u := s.issued n 0x0105 q
    let id := BitVec.ofNat 16 (bits h.toNat 64 16)
    let service := bits h.toNat 80 8
    let type := bits h.toNat 88 8
    let placedIn (v : State) (slot : Nat) (b : Block) : State :=
      { v with
        jobs := upd v.jobs slot (·.map fun j => { j with blocks := insertBy (fun x y => x.service < y.service) b (j.blocks.filter (·.service != service)) }) }
    let placed := placedIn u
    let ok (v : State) : Prop := s.completes (.configWrite n q) n { job := id, service := service } v
    let disabled (ws : List Word) : Prop := bits h.toNat 96 1 = 0 ∧ bits h.toNat 16 8 = 1 ∧ ws.length = min (min (bits h.toNat 32 32) (arg a 3)) 32 ∧
      s.holds (argAddr a 1 / 32) ws = true
    let enabled (ws : List Word) : Prop := s.holds (argAddr a 1 / 32) (h :: ws) = true ∧ bits h.toNat 0 24 = 0x010002 ∧ bits h.toNat 96 1 = 1 ∧
      bits h.toNat 32 32 = ws.length + 1 ∧ ws.length + 1 = blockLength type ∧ ws.length + 1 ≤ arg a 3 ∧ bits h.toNat 128 32 ≠ 0xFFFFFFFF
    argAddr a 1 % 32 = 0 → 1 ≤ arg a 3 → arg a 3 < 0xFFFFFFFF → s.holds (argAddr a 1 / 32) [h] = true →
    (id = 0xFFFF →
      (s.activeJob.isSome = true →
        s.completes (.configWrite n q) n { status := .refused, reason := 0x0111, job := id, service := service } u) ∧
      (∀ ws, s.activeJob = none → disabled ws → ok (putBlock none ⟨type, service, id, false, ws⟩ u)) ∧
      (∀ ws, s.activeJob = none → enabled ws → deviceService type service = true →
        (∀ t ∈ blockTests none, blockTest t none ⟨type, service, id, true, h :: ws⟩ u = .ok ()) →
        ok (putBlock none ⟨type, service, id, true, h :: ws⟩ u))) ∧
    (id ≠ 0xFFFF → s.jobById id.toNat = none →
      s.completes (.configWrite n q) n { status := .refused, reason := 0x0111, job := id, service := service } u) ∧
    (∀ slot j, id ≠ 0xFFFF → s.jobById id.toNat = some (slot, j) →
      (j.state ≠ .defined →
        s.completes (.configWrite n q) n { status := .refused, reason := 0x0111, job := id, service := service } u) ∧
      (j.state = .defined → bits h.toNat 96 1 = 0 → bits h.toNat 16 8 ≠ 1 →
        s.completes (.configWrite n q) n { status := .refused, reason := 0x0103, job := id, service := service } u) ∧
      (∀ ws, j.state = .defined → disabled ws →
        ok { placed slot ⟨type, service, id, false, ws⟩ with claims := u.claims.filter (·.owner != ⟨id, service⟩) }) ∧
      (∀ ws, j.state = .defined → enabled ws → jobLevel type = true → type ≠ 0x11 ∨ s.pat.active = none →
        (∀ t ∈ blockTests (some j), blockTest t (some j) ⟨type, service, id, true, h :: ws⟩ u = .ok ()) →
        ok (takeClaims ⟨type, service, id, true, h :: ws⟩ (placed slot ⟨type, service, id, true, h :: ws⟩))) ∧
      (∀ ws v, j.state = .defined → enabled ws → jobLevel type = true →
        runProg (enableTests (some j) ⟨type, service, id, true, h :: ws⟩) u = (v, .ok ()) →
        ok (takeClaims ⟨type, service, id, true, h :: ws⟩ (placedIn v slot ⟨type, service, id, true, h :: ws⟩))))

/-- CHANNEL_GOAL (R206): a node of the Pattern within the channel's partition becomes the goal that takes effect at the next step 1, and nothing else
changes; a goal at or above NODE_COUNT, in another partition, or with no Pattern is refused with 0x0403 and the goal stands.
SERVICE_PRIORITY (R489): the map of a service of the ARMED or RUNNING job waits for the next step 1 where the job has a CONTROL_CYCLE service, is in
force at once where it has none, and takes the place of an earlier one; nothing else changes. -/
def Obligations.GoalsAndPriorities : Prop :=
  (∀ (n : Fin 4) (q : BitVec 16) (s : State) (slot : Nat) (j : Job) (b : Block), s.takes n 0x0108 = true →
     let a := s.arguments n
     let id := BitVec.ofNat 16 (arg a 0)
     let goal := arg a 1
     let u := s.issued n 0x0108 q
     liveJob a s = some (slot, j) → j.channelBlock (bits (arg a 0) 16 4) = some b →
     (s.pat.active = none →
       s.completes (.channelGoal n q) n { status := .refused, reason := 0x0403, job := id, service := b.service, a := 0xFFFF } u) ∧
     (∀ p w, s.pat.active = some p →
       (p.nodes ≤ goal →
         s.completes (.channelGoal n q) n { status := .refused, reason := 0x0403, job := id, service := b.service, a := 0xFFFF } u) ∧
       (goal < p.nodes → s.reads (p.nodeAt + goal) w = true → (nodeOf w.toNat).partition ≠ b.field 1 →
         s.completes (.channelGoal n q) n
           { status := .refused, reason := 0x0403, job := id, service := b.service, a := (nodeOf w.toNat).partition } u) ∧
       (goal < p.nodes → s.reads (p.nodeAt + goal) w = true → (nodeOf w.toNat).partition = b.field 1 →
         s.completes (.channelGoal n q) n { job := id, service := b.service }
           { u with chans := upd u.chans (b.field 0) fun c => { c with pendingGoal := some goal } }))) ∧
  (∀ (n : Fin 4) (q : BitVec 16) (s : State), s.takes n 0x0109 = true →
     let a := s.arguments n
     let id := BitVec.ofNat 16 (arg a 0)
     let service := bits (arg a 0) 16 6
     let map := BitVec.ofNat 24 (arg a 1)
     let u := s.issued n 0x0109 q
     (liveJob a s = none → s.completes (.servicePriority n q) n { status := .refused, reason := 0x0112, job := id, service := service } u) ∧
     (∀ slot j, liveJob a s = some (slot, j) →
       (j.service service = none →
         s.completes (.servicePriority n q) n { status := .refused, reason := 0x0105, job := id, service := service } u) ∧
       (∀ old, (j.service service).isSome = true → (j.priorities.find? (·.service == service)).getD ⟨service, none, none⟩ = old →
         s.completes (.servicePriority n q) n { job := id, service := service }
           { u with jobs := upd u.jobs slot fun _ => some { j with priorities := j.priorities.filter (·.service != service) ++
               [if (j.blockOf 0x10).isSome then { old with next := some map } else { old with current := some map, next := none }] } })))

/-- PATTERN_INSTALL (R139, R140): refused with 0x0112 beside an active job; where steps 1 to 7 pass, the slot's image is the active Pattern, no slice of
the Tracer is valid and the install is counted; where one fails, the command completes with it and counts the failure.  A slot without regions fails at
once with 0x0303.  That a refused command counts no install, and what an engine's halt leaves, are the model's choices (logs 70 and 99). -/
def Obligations.PatternInstall : Prop :=
  ∀ (n : Fin 4) (q : BitVec 16) (s : State), s.takes n 0x0301 = true →
    let slot := bits (arg (s.arguments n) 0) 0 1
    let u := s.issued n 0x0301 q
    (s.activeJob.isSome = true → s.completes (.patternInstall n q) n { status := .refused, reason := 0x0112 } u) ∧
    (s.activeJob = none → (s.slotSpan slot).len = 0 →
      s.completes (.patternInstall n q) n { status := .refused, reason := 0x0303, a := 1 }
        { u with pat.installsFailed := satAdd 65535 u.pat.installsFailed 1, pat.lastResult := 0x0303 }) ∧
    (∀ v, s.activeJob = none → runProg (installSteps slot) u = (v, .ok ()) →
      ∃ p : Pattern, p.slot = slot ∧ v.pat.active = some p ∧ v.trc.valid = 0 ∧ v.trc.fault = false ∧ v.trc.fullCount = none ∧ v.trc.rotations = [] ∧
        v.trc.recounts = [] ∧ v.trc.overflow = none ∧ v.jobs = s.jobs ∧ v.devBlocks = s.devBlocks ∧ v.claims = s.claims ∧
        s.completes (.patternInstall n q) n {} { v with pat.installsOk := satAdd 65535 v.pat.installsOk 1 }) ∧
    (∀ v f, s.activeJob = none → runProg (installSteps slot) u = (v, .error f) →
      (v.pat.active = s.pat.active ∨ v.pat.active = none ∧ f.reason = 0x0A07) ∧
      s.completes (.patternInstall n q) n (Fail.completion f)
        { v with pat.installsFailed := satAdd 65535 v.pat.installsFailed 1, pat.lastResult := BitVec.ofNat 16 f.reason })

/-- NETWORK_LOAD (R297): a job that is unknown or not DEFINED refuses with 0x0112; an image that passes steps 1 to 7 is the network of its NET_ID, and a
load of which a step fails completes with it and leaves the NET_IDs of every job as they were. -/
def Obligations.NetworkLoad : Prop :=
  ∀ (n : Fin 4) (q : BitVec 16) (s : State), s.takes n 0x0601 = true →
    let a := s.arguments n
    let id := BitVec.ofNat 16 (arg a 0)
    let netId := bits (arg a 0) 16 6
    let u := s.issued n 0x0601 q
    (definedJob a s = none → s.completes (.networkLoad n q) n { status := .refused, reason := 0x0112, job := id } u) ∧
    (∀ slot j, definedJob a s = some (slot, j) → j.bufferSpan (bits (arg a 1) 0 12) = none →
      s.completes (.networkLoad n q) n { status := .refused, reason := 0x010A, job := id } u) ∧
    (∀ slot j sp, definedJob a s = some (slot, j) → j.bufferSpan (bits (arg a 1) 0 12) = some sp →
      (∀ v net, runProg (networkSteps netId sp) u = (v, .ok net) →
        net.netId = netId ∧ net.base = sp.key ∧ net.size = sp.len ∧ v.jobs = s.jobs ∧ s.completes (.networkLoad n q) n { job := id }
          (v.setJob slot fun x => { x with networks := x.networks.filter (·.netId != netId) ++ [net] })) ∧
      (∀ v f, runProg (networkSteps netId sp) u = (v, .error f) → v.jobs = s.jobs ∧ s.completes (.networkLoad n q) n (Fail.completion f id) v))

/-- PATTERN_RETIRE leaves no Pattern active (R144); it is refused with 0x0112 beside an active job (R139) and with 0x0304 where no Pattern is active.
SAFETY_RESUME: if no cause stands it clears every latched cause; if any stands it is refused with 0x0906 and DETAIL_A holds the standing causes
(R362).
MEMORY_MODE (R403) is refused with 0x0112 beside an active job; else ARG0 sets the policy, and nothing else changes where no merge entry waits to be
flushed or the policy stays in Service.
MOVE_ENGINE_RESUME ends the halt of the engine of ARG0 (R401); an engine that is not halted refuses with 0x0114.
TRACE_CONTROL sets the trace mask (R429).
SYNC_ALIGN arms the value A of ARG0 and ARG1 for 10 ms, a MASTER begins its low pulse of 1 µs on SYNC, the mailbox stays BUSY and nothing else changes
(R56). -/
def Obligations.ShortMailboxCommands : Prop :=
  (∀ (n : Fin 4) (q : BitVec 16) (s : State), s.takes n 0x0302 = true →
     let u := s.issued n 0x0302 q
     (s.activeJob.isSome = true → s.completes (.patternRetire n q) n { status := .refused, reason := 0x0112 } u) ∧
     (s.activeJob = none → s.pat.active = none → s.completes (.patternRetire n q) n { status := .refused, reason := 0x0304 } u) ∧
     (s.activeJob = none → s.pat.active.isSome = true → s.completes (.patternRetire n q) n {} { u with pat.active := none })) ∧
  (∀ (n : Fin 4) (q : BitVec 16) (s : State), s.takes n 0x0901 = true →
     let u := s.issued n 0x0901 q
     (s.standing = 0 → s.completes (.safetyResume n q) n {} { u with sm.latched := 0 }) ∧
     (s.standing ≠ 0 → s.completes (.safetyResume n q) n { status := .refused, reason := 0x0906, a := s.standing } u)) ∧
  (∀ (n : Fin 4) (q : BitVec 16) (s : State), s.takes n 0x0A01 = true →
     let u := s.issued n 0x0A01 q
     let maintenance := bits (arg (s.arguments n) 0) 0 1 == 1
     (s.activeJob.isSome = true → s.completes (.memoryMode n q) n { status := .refused, reason := 0x0112 } u) ∧
     (s.activeJob = none → s.memCtl.merge = [] ∨ maintenance = true →
       s.completes (.memoryMode n q) n {} { u with memCtl.maintenance := maintenance }) ∧
     (s.activeJob = none → s.memCtl.maintenance = true → maintenance = false →
       s.completes (.memoryMode n q) n {} { flushAll u with memCtl.maintenance := false })) ∧
  (∀ (n : Fin 4) (q : BitVec 16) (s : State), s.takes n 0x0A04 = true →
     let m := bits (arg (s.arguments n) 0) 0 4
     let u := s.issued n 0x0A04 q
     (s.me.halted.getLsbD m = false → s.completes (.moveEngineResume n q) n { status := .refused, reason := 0x0114 } u) ∧
     (s.me.halted.getLsbD m = true → ∃ h : BitVec 16, h.getLsbD m = false ∧ (∀ i, i ≠ m → h.getLsbD i = s.me.halted.getLsbD i) ∧
       s.completes (.moveEngineResume n q) n {} { u with me.halted := h })) ∧
  (∀ (n : Fin 4) (q : BitVec 16) (s : State), s.takes n 0x0C02 = true →
     s.completes (.traceControl n q) n {} { s.issued n 0x0C02 q with fw.traceMask := BitVec.ofNat 32 (arg (s.arguments n) 0) }) ∧
  (∀ (n : Fin 4) (q : BitVec 16) (s : State), s.takes n 0x0B02 = true →
     s.goesOn (.syncAlign n q)
       { s.issued n 0x0B02 q with
         line.syncArm := s.line.syncArm ++ [{ mbx := n, value := argAddr (s.arguments n) 0, limit := s.now + 10000000 }]
         line.syncLow := if s.role = .master then 1000 else s.line.syncLow })

/-- MEM_FLIP_ARM (R408) is refused with 0x0112 outside Maintenance; in Maintenance it arms the flip of a memory, at its word address where ADDR is given,
with the data mask of the payload and the check mask of ARG3, in the place of an earlier one.
MEM_REPAIR (R411): a repair of a column, or of a row whose 8 words are mended first, with a spare left joins the soft-repair set, is counted and reported by event 0x0A05, and
joins the commit queue where COMMIT is set and the queue has room; with no spare left or the set full it is refused with 0x0106, and a bank, column or row
beyond the memory with 0x0105, and nothing changes.  That a repair with COMMIT is applied all the same where the queue is full is the model's choice (log 42). -/
def Obligations.MemoryTestAndRepair : Prop :=
  (∀ (n : Fin 4) (q : BitVec 16) (s : State) (mask : Word), s.takes n 0x0A02 = true →
     let a := s.arguments n
     let u := s.issued n 0x0A02 q
     let mem := bits (arg a 0) 0 4
     let inst := bits (arg a 0) 4 8
     let key := s.flipKey mem inst (argAddr a 1)
     (s.memCtl.maintenance = false → s.completes (.memFlipArm n q) n { status := .refused, reason := 0x0112 } u) ∧
     (s.memCtl.maintenance = true → 6 < mem → s.completes (.memFlipArm n q) n { status := .refused, reason := 0x0105 } u) ∧
     (s.memCtl.maintenance = true → mem ≤ 6 → inst < s.memInstances mem → s.reads (payloadBase n) mask = true →
       (bits (arg a 0) 16 1 = 1 → key.isSome = true →
         s.completes (.memFlipArm n q) n {}
           { u with memCtl.flip := some ⟨mem, inst, key, mask, BitVec.ofNat 32 (arg a 3)⟩, memCtl.flipFired := false }) ∧
       (bits (arg a 0) 16 1 = 0 →
         s.completes (.memFlipArm n q) n {}
           { u with memCtl.flip := some ⟨mem, inst, none, mask, BitVec.ofNat 32 (arg a 3)⟩, memCtl.flipFired := false }))) ∧
  (∀ (n : Fin 4) (q : BitVec 16) (s : State), s.takes n 0x0A03 = true →
     let a := s.arguments n
     let u := s.issued n 0x0A03 q
     let mem := bits (arg a 0) 0 4
     let inst := bits (arg a 0) 4 8
     let column := bits (arg a 0) 12 1 == 1
     let r : Repair := { memory := mem, inst := inst, column := column, bank := arg a 1, index := arg a 2, commit := bits (arg a 0) 16 1 == 1 }
     let place := if column then arg a 2 ≤ 287 else ∀ w, bankWords mem = some w → arg a 2 < w / 8
     (6 < mem ∨ s.memInstances mem ≤ inst ∨ bankCount mem ≤ arg a 1 ∨ ¬ place →
       s.completes (.memRepair n q) n { status := .refused, reason := 0x0105 } u) ∧
     (mem ≤ 6 → inst < s.memInstances mem → arg a 1 < bankCount mem → place →
       (32 ≤ s.memCtl.softRepairs.length ∨ spares mem column ≤ s.sparesUsed r →
         s.completes (.memRepair n q) n { status := .refused, reason := 0x0106 } u) ∧
       (s.memCtl.softRepairs.length < 32 → s.sparesUsed r < spares mem column →
         let v := if column then u else (rowKeys mem inst (arg a 1) (arg a 2)).foldl (fun s k => mendWord k s) u
         s.completes (.memRepair n q) n {}
           (writeEvent { v.event 0x0A05 0xFE with a := at_ mem 0 4 ||| at_ inst 4 8 ||| at_ (b2n column) 12 1, b := arg a 1, value := arg a 2 }
             { v with
               memCtl.softRepairs := v.memCtl.softRepairs ++ [r], memCtl.repairsApplied := satAdd 65535 v.memCtl.repairsApplied 1,
               lcc.commitQueue := if r.commit && v.lcc.commitQueue.length < 32 then v.lcc.commitQueue ++ [r] else v.lcc.commitQueue }))))

/-- LINE_REFERENCE (R45, R59) on a device that is no follower, with no entry on the delay lists: n is n0, ρ is 0, M is K:floor(n0 × 65,536 / C), V stands,
and nothing outside the Line Timer changes.  It is refused with 0x0105 where n0 is not below C, with 0x0B40 while every input that may count stands at
fault, and with 0x0B48 where the new M lies behind the old; a follower adopts the next sample of the master instead.  Of the entries on lists keyed to M those whose
keys lie strictly between the old and the new M are removed, the others stand, and one that is removed completes ABORTED with 0x0225.  That the line is STOPPED
at once whatever its state was, and that M of a MASTER moves at once, are the model's choices (log 60). -/
def Obligations.LineReference : Prop :=
  ∀ (n : Fin 4) (q : BitVec 16) (s : State), s.takes n 0x0B01 = true →
    let k := arg (s.arguments n) 0
    let n0 := arg (s.arguments n) 1
    let u := s.issued n 0x0B01 q
    let new := positionOf k n0 s.encCounts
    let atFault := s.line.enc0.faultLow && (s.enc1Mode != 1 || s.line.enc1.faultLow)
    (s.role = .follower → k = 0 → n0 = 0 → s.completes (.lineReference n q) n {} { u with line.adopt := true }) ∧
    (s.role = .follower → k ≠ 0 ∨ n0 ≠ 0 → s.completes (.lineReference n q) n { status := .refused, reason := 0x0105 } u) ∧
    (s.role ≠ .follower → s.encCounts ≤ n0 → s.completes (.lineReference n q) n { status := .refused, reason := 0x0105 } u) ∧
    (s.role ≠ .follower → n0 < s.encCounts → atFault = true →
      s.completes (.lineReference n q) n { status := .refused, reason := 0x0B40 } u) ∧
    (s.role ≠ .follower → n0 < s.encCounts → atFault = false → keyAhead s.line.genM new = true →
      s.completes (.lineReference n q) n { status := .refused, reason := 0x0B48 } u) ∧
    (s.role ≠ .follower → n0 < s.encCounts → atFault = false → keyAhead s.line.genM new = false → s.line.lists = [[], [], [], []] →
      ∃ l : Line, l.m = new ∧ l.v = s.line.v ∧ l.enc0.n = n0 ∧ l.enc0.rho = 0 ∧ l.enc1.n = n0 ∧ l.enc1.rho = 0 ∧ l.state = .stopped ∧
        l.lists = s.line.lists ∧ s.completes (.lineReference n q) n {} { u with line := l }) ∧
    (s.role ≠ .follower → n0 < s.encCounts → atFault = false → keyAhead s.line.genM new = false → s.line.lists.length = 4 →
      (∀ l ∈ s.line.lists, ∀ e ∈ l, e.tag ≠ serviceTag 0x14) →
      let skipped (k : Nat) (e : DelayEntry) : Prop := s.listOnV k = false ∧ 0 < keyDistance e.key s.line.m ∧ keyDistance e.key s.line.m < keyDistance new s.line.m
      ∃ t : State, s.completes (.lineReference n q) n {} t ∧ t.line.m = new ∧ t.line.v = s.line.v ∧
        (∀ k e, k < 4 → (e ∈ t.delayList k ↔ e ∈ s.delayList k ∧ ¬ skipped k e)) ∧
        (∀ k e, k < 4 → s.delayList k = [e] → skipped k e → (∀ i, i ≠ k → s.delayList i = []) →
          ∃ l : Line, t = { writeCompletion { status := .aborted, reason := 0x0225, job := s.refJob e.owner, service := e.owner.service } u with line := l }))

/-- ATTEST is refused with 0x0C08 outside PROVISIONED and FIELD, while the Thimble is wiped and after a tamper event (R440, R507, R511); else the report of
120 words stands in the mailbox's payload area, its first word with the magic, the life cycle, the state of the Safety Manager and the nonce's first
24 bytes, the count of reports is one more (R439), and nothing else changes but what a write to these words changes. -/
def Obligations.Attest : Prop :=
  ∀ (n : Fin 4) (q : BitVec 16) (s : State), s.takes n 0x0C03 = true →
    let u := s.issued n 0x0C03 q
    (s.lcc.fuses.lifeCycle ≠ .provisioned ∧ s.lcc.fuses.lifeCycle ≠ .field ∨ s.lcc.wipeRunning = true ∨ s.lcc.tamper ≠ 0 →
      s.completes (.attest n q) n { status := .refused, reason := 0x0C08 } u) ∧
    (s.lcc.fuses.lifeCycle = .provisioned ∨ s.lcc.fuses.lifeCycle = .field → s.lcc.wipeRunning = false → s.lcc.tamper = 0 →
      ∃ ws : List Word, ws.length = 120 ∧
        Word.get (nth ws 0 0) 0 56 = 0x46544131 + 2 ^ 32 + 2 ^ 48 * s.lcc.fuses.lifeCycle.code ∧
        Word.get (nth ws 0 0) 56 8 = s.smState ∧
        (∀ i, i < 6 → Word.get (nth ws 0 0) (64 + 32 * i) 32 = arg (s.arguments n) i) ∧
        s.completes (.attest n q) n {}
          (writeWords (payloadBase n) ws { u with fw.reports := satAdd 4294967295 u.fw.reports 1 }))

/-- FW_LOAD (R432, R486): before the image is read, a length of all ones, a length of zero, an unaligned address, a placement outside FREE regions 4 to 95 and an
active job refuse it with the codes of R80 and R85, in an order that the model reads from them (log 23), and only LAST_FAIL changes; where every step passes, all four cores start on the image, the Work Cores hold no kernel,
the jobs stand and the mailbox stays BUSY; where one fails, the command completes with it and LAST_FAIL takes its reason.  That a held core starts too is
the model's choice (log 78). -/
def Obligations.FwLoad : Prop :=
  ∀ (n : Fin 4) (q : BitVec 16) (s : State), s.takes n 0x0C01 = true →
    let a := s.arguments n
    let u := s.issued n 0x0C01 q
    let placed := fwPlaced s (argAddr a 0 / 32) (arg a 2)
    let stops (reason : Nat) : Prop := s.completes (.fwLoad n q) n { status := .refused, reason := reason }
      { u with fw.lastFail := BitVec.ofNat 16 reason }
    (arg a 2 = 0xFFFFFFFF → stops 0x0107) ∧
    (arg a 2 = 0 → stops 0x0108) ∧
    (arg a 2 ≠ 0 → arg a 2 ≠ 0xFFFFFFFF → argAddr a 0 % 32 ≠ 0 → stops 0x0109) ∧
    (arg a 2 ≠ 0 → arg a 2 ≠ 0xFFFFFFFF → argAddr a 0 % 32 = 0 → placed = false → stops 0x0116) ∧
    (arg a 2 ≠ 0 → arg a 2 ≠ 0xFFFFFFFF → argAddr a 0 % 32 = 0 → placed = true → s.activeJob.isSome = true → stops 0x0C03) ∧
    (arg a 2 ≠ 0 → arg a 2 ≠ 0xFFFFFFFF → argAddr a 0 % 32 = 0 → placed = true → s.activeJob = none →
      (∀ v, runProg (fwProg a) u = (v, .ok ()) →
        v.fw.ready = 0 ∧ v.fw.held = 0 ∧ v.fw.stage = (if s.fw.stage = .bootRom then .loading else .updating) ∧ v.shu.kernels = [] ∧
          v.jobs = s.jobs ∧ s.goesOn (.fwLoad n q) { v with serialBusy := some n.val }) ∧
      (∀ v f, runProg (fwProg a) u = (v, .error f) →
        s.completes (.fwLoad n q) n (Fail.completion f) { v with fw.lastFail := BitVec.ofNat 16 f.reason }))

/-- LIFECYCLE_SET (R508): a transition that the table does not name, one whose condition is unmet and any beside an active job are refused with 0x0C07 and
nothing changes; an accepted transition without authorisation starts its burn, and the mailbox stays BUSY.  Its end one tick later at the earliest is
the model's choice (log 33).
A transition to RETURNED begins only where the payload area holds a key whose SHAKE256 digest is the return-key digest and a signature of the serial
number that verifies; else it is refused with 0x0C07, DETAIL_A 3, and the life cycle stands (R508, R509). -/
def Obligations.LifecycleSet : Prop :=
  (∀ (n : Fin 4) (q : BitVec 16) (s : State), s.takes n 0x0C05 = true →
     let u := s.issued n 0x0C05 q
     let now := s.lcc.fuses.lifeCycle
     let wanted := bits (arg (s.arguments n) 0) 0 3
     let refusal (a : Nat) : Prop := s.completes (.lifecycleSet n q) n { status := .refused, reason := 0x0C07, a := a } u
     ((now, wanted) ∉ [(.manufacture, 2), (.provisioned, 3), (.provisioned, 4), (.provisioned, 5), (.field, 4), (.field, 5), (.returned, 5)] → refusal 1) ∧
     (now = .manufacture → wanted = 2 → s.lcc.fuses.fwKey = none ∨ s.lcc.fuses.returnKey = none → refusal 2) ∧
     (now = .provisioned → wanted = 3 → (∀ k ∈ s.lcc.fuses.patternKeys, k = none) → refusal 2) ∧
     (∀ next, ((now, wanted), next) ∈ [((LifeCycle.manufacture, 2), LifeCycle.provisioned), ((.provisioned, 3), .field), ((.provisioned, 5), .scrapped),
         ((.field, 5), .scrapped), ((.returned, 5), .scrapped)] →
       (next = .provisioned → s.lcc.fuses.fwKey.isSome = true ∧ s.lcc.fuses.returnKey.isSome = true) →
       (next = .field → ∃ k ∈ s.lcc.fuses.patternKeys, k ≠ none) →
       (s.activeJob.isSome = true → refusal 4) ∧
       (s.activeJob = none → s.goesOn (.lifecycleSet n q)
         { u with lcc.burn := some { mbx := n, target := .lifeCycle next, endAt := s.now + 1 }, serialBusy := some n.val }))) ∧
  (∀ (n : Fin 4) (q : BitVec 16) (s : State) (ws : List Word), s.takes n 0x0C05 = true →
     s.lcc.fuses.lifeCycle = .provisioned ∨ s.lcc.fuses.lifeCycle = .field → bits (arg (s.arguments n) 0) 0 3 = 4 →
     ws.length = 165 → s.readsAll (payloadBase n) ws = true →
     let u := s.issued n 0x0C05 q
     let bs := wordsBytes ws
     let message := toBytes s.lcc.fuses.serial.toNat 8 ++ [4#8] ++ List.replicate 7 0
     let holds := s.lcc.fuses.returnKey = some (BitVec.ofNat 512 (ofBytes (shake64 (bs.take 1952)))) ∧
       mlDsaVerify (bs.take 1952) message ((bs.drop 1952).take 3309) = true
     (¬ holds → s.completes (.lifecycleSet n q) n { status := .refused, reason := 0x0C07, a := 3 } u) ∧
     (holds → s.activeJob = none → s.goesOn (.lifecycleSet n q)
       { u with lcc.burn := some { mbx := n, target := .lifeCycle .returned, endAt := s.now + 1 }, serialBusy := some n.val }))

/-- KEY_PROVISION (R506), in the order of its table: an active job, a life cycle that does not provision the target, an SVN not above the minimum refuse;
a higher SVN starts its burn, as does a digest of the payload area that is neither all zeros nor all ones in an item that is empty or holds it; another
digest in the item refuses.  The time of the burn is the model's choice (log 33). -/
def Obligations.KeyProvision : Prop :=
  ∀ (n : Fin 4) (q : BitVec 16) (s : State), s.takes n 0x0C06 = true →
    let target := bits (arg (s.arguments n) 0) 0 4
    let svn := bits (arg (s.arguments n) 1) 0 8
    let u := s.issued n 0x0C06 q
    let now := s.lcc.fuses.lifeCycle
    let may := now = .manufacture ∨ target ≠ 0 ∧ (now = .provisioned ∨ now = .field)
    let refusal (reason a : Nat) : Prop := s.completes (.keyProvision n q) n { status := .refused, reason := reason, a := a } u
    let burns (t : BurnTarget) : Prop := s.goesOn (.keyProvision n q)
      { u with lcc.burn := some { mbx := n, target := t, endAt := s.now + 1 }, serialBusy := some n.val }
    (s.activeJob.isSome = true → refusal 0x0C07 4) ∧
    (s.activeJob = none →
      (target ≤ 5 → ¬ may → refusal 0x0C07 1) ∧
      (5 < target → refusal 0x0105 0) ∧
      (may → target = 5 → svn ≤ s.lcc.fuses.svnMin → refusal 0x0105 0) ∧
      (may → target = 5 → s.lcc.fuses.svnMin < svn → burns (.svn svn)) ∧
      (∀ lo hi : Word, may → target < 5 → s.reads (payloadBase n) lo = true → s.reads (payloadBase n + 1) hi = true →
        let d : BitVec 512 := hi ++ lo
        (d = 0 ∨ d = BitVec.allOnes 512 → refusal 0x0105 0) ∧
        (∀ k, d ≠ 0 → d ≠ BitVec.allOnes 512 → s.keyAt target = some k → k ≠ d → refusal 0x0C07 2) ∧
        (d ≠ 0 → d ≠ BitVec.allOnes 512 → s.keyAt target = none ∨ s.keyAt target = some d →
          burns (if target = 0 then .fwKey d else .patternKey (target - 1) d))))

/-! ## Registers, rings and the Die Link -/

/-- Host accesses to BAR0 (R6 to R8, R407): a wrong width or alignment and a reserved address read as zero, ignore the write, and are violations of the
host; a register reads its value, a _LO register latches its _HI half and a _HI register reads the half latched last; LCC_SCRATCH and the arguments of
a mailbox that is not BUSY take what is written, an argument of a BUSY mailbox is a violation (R420), MBX_n_STATUS clears DONE and COLLISION by 1, a
register outside the mailbox block and LCC_SCRATCH ignores the write.  A violation counter of a Work Core that the grade lacks is no register of the host: a
read and a write of it are violations (R3, R407, R495; log 81).  That a read returns the present value is the model's
choice within the 1 µs of R492 (log 20). -/
def Obligations.RegisterAccess : Prop :=
  ∀ s : State, s.hostReaches = true →
    let present (o : BitVec 28) : Prop := s.grade = .ft9_64I ∨ o.toNat < 0xB001D4 ∨ 0xB00214 ≤ o.toNat
    (∀ (o : BitVec 28) (width : Nat) (v : Reg), width ≠ 4 ∨ o.toNat % 4 ≠ 0 ∨ s.register o.toNat = none ∨
        s.grade = .ft9_48I ∧ 0xB001D4 ≤ o.toNat ∧ o.toNat < 0xB00214 →
      exec (.registerLoRead o width) s = .next (settled s
        { violate 0 o.toNat true false false s with reply := { data := toBytes 0 width, poisoned := false } }) ∧
      exec (.registerWrite o width v) s = .next (settled s (violate 0 o.toNat true true false s))) ∧
    (∀ (o : BitVec 28) (r : Nat), o.toNat % 4 = 0 → present o → s.register o.toNat = some r → isLo o.toNat = false → isHi o.toNat = false →
      exec (.registerLoRead o 4) s = .next (settled s { s with reply := { data := toBytes r 4, poisoned := false } })) ∧
    (∀ (o : BitVec 28) (lo hi : Nat), o.toNat % 4 = 0 → present o → s.register o.toNat = some lo → isLo o.toNat = true → isHi o.toNat = false →
      s.register (o.toNat + 4) = some hi →
      ∃ t : State, exec (.registerLoRead o 4) s = .next (settled s { t with reply := { data := toBytes lo 4, poisoned := false } }) ∧
        t.latchedHi (o.toNat + 4) = BitVec.ofNat 32 hi ∧ (∀ x, x ≠ o.toNat + 4 → t.latchedHi x = s.latchedHi x) ∧
        t = { s with hiLatches := t.hiLatches }) ∧
    (∀ (o : BitVec 28) (r : Nat), o.toNat % 4 = 0 → present o → s.register o.toNat = some r → isHi o.toNat = true →
      exec (.registerLoRead o 4) s = .next (settled s { s with reply := { data := toBytes (s.latchedHi o.toNat).toNat 4, poisoned := false } })) ∧
    (∀ v : Reg, exec (.registerWrite 0x18 4 v) s = .next (settled s { s with lcc.scratch := v })) ∧
    (∀ (n : Fin 4) (k : Fin 16) (o : BitVec 28) (v : Reg), o.toNat = 0x100020 + 0x100 * n.val + 4 * k.val →
      ((s.box n).busy = false → exec (.registerWrite o 4 v) s =
        .next (settled s { s with mbx := upd s.mbx n fun b => { b with args := upd b.args k fun _ => v } })) ∧
      ((s.box n).busy = true → exec (.registerWrite o 4 v) s = .next (settled s (violate 0 o.toNat true true false s)))) ∧
    (∀ (n : Fin 4) (o : BitVec 28) (v : Reg), o.toNat = 0x100004 + 0x100 * n.val →
      exec (.registerWrite o 4 v) s = .next (settled s { s with mbx := upd s.mbx n fun b =>
        { b with done := b.done && !v.getLsbD 1, collision := b.collision && !v.getLsbD 2 } })) ∧
    (∀ (o : BitVec 28) (v : Reg), o.toNat % 4 = 0 → (s.register o.toNat).isSome = true → o.toNat ≠ 0x18 → o.toNat / 0x100000 ≠ 1 →
      present o → exec (.registerWrite o 4 v) s = .next (settled s s))

/-- Index writes of the host (R424, R425): MBX_SQ_TAIL is accepted if it moves forward and keeps TAIL − HEAD within 4,096, a HEAD if it moves forward
and not past TAIL; any other write is ignored and counted.  After drops the EQ takes one marker and the LQ one DROP record. -/
def Obligations.IndexWrites : Prop :=
  ∀ (v : Reg) (s : State), s.hostReaches = true →
    let ignored : State := { s with rings.indexErrors := satAdd 65535 s.rings.indexErrors 1 }
    let forward (r : Ring) : Prop := v ≠ r.head ∧ (v - r.head).toNat ≤ (r.tail - r.head).toNat
    let sq := s.rings.sq
    (v ≠ sq.tail ∧ (sq.tail - sq.head).toNat + (v - sq.tail).toNat ≤ 4096 →
      exec (.mbxSqTailWrite v) s = .next (settled s { s with rings.sq.tail := v })) ∧
    (v = sq.tail ∨ 4096 < (sq.tail - sq.head).toNat + (v - sq.tail).toNat → exec (.mbxSqTailWrite v) s = .next (settled s ignored)) ∧
    (forward s.rings.cq → exec (.ringHeadWrite .cq v) s = .next (settled s { s with rings.cq.head := v })) ∧
    (¬ forward s.rings.cq → exec (.ringHeadWrite .cq v) s = .next (settled s ignored)) ∧
    (¬ forward s.rings.eq → exec (.ringHeadWrite .eq v) s = .next (settled s ignored)) ∧
    (¬ forward s.rings.lq → exec (.ringHeadWrite .lq v) s = .next (settled s ignored)) ∧
    (forward s.rings.eq → s.rings.eq.gap = 0 → exec (.ringHeadWrite .eq v) s = .next (settled s { s with rings.eq.head := v })) ∧
    (forward s.rings.lq → s.rings.lq.gap = 0 → exec (.ringHeadWrite .lq v) s = .next (settled s { s with rings.lq.head := v })) ∧
    (forward s.rings.eq → s.rings.eq.gap ≠ 0 → (s.rings.eq.tail - v).toNat ≠ 4096 → exec (.ringHeadWrite .eq v) s = .next (settled s
      (writeEvent { s.event 0x0C05 94 with value := s.rings.eq.gap, gcnt := s.rings.eq.gapGcnt.toNat }
        { s with rings.eq.head := v, rings.eq.gap := 0 }))) ∧
    (forward s.rings.lq → s.rings.lq.gap ≠ 0 → (s.rings.lq.tail - v).toNat ≠ 8192 → exec (.ringHeadWrite .lq v) s = .next (settled s
      (pushLq (logWord 2 s.rings.lq.gapCore 0 0x0C05 s.rings.lq.gapGcnt.toNat s.rings.lq.gap 0 0 0) s.rings.lq.gapCore
        { s with rings.lq.head := v, rings.lq.gap := 0 })))

/-- A submission entry is consumed (R426): poison, a wrong KIND or a reserved bit, a JOB_ID that is not the RUNNING job's and a list that is not loaded
write their completion record and are counted; an entry that passes is a host triggering of its list, and where the list is admitted (R108) each of its
entries is a work item, and no record is written. -/
def Obligations.SubmissionEntries : Prop :=
  (∀ (s v : State) (g : Got), s.awake = true → s.rings.sq.fill ≠ 0 → readWord { num := 94 } (sqBase + s.rings.sq.head.toNat % 4096) s = (v, g) →
    g.bad = true → exec .submissionEntry s = .next (settled s (writeCompletion { status := .poisoned, reason := 0x0A01 }
      { v with rings.sq.head := s.rings.sq.head + 1, rings.entryErrors := satAdd 65535 v.rings.entryErrors 1 }))) ∧
  ∀ (s : State) (w : Word), s.awake = true → s.rings.sq.fill ≠ 0 → s.reads (sqBase + s.rings.sq.head.toNat % 4096) w = true →
    let list := Word.get w 8 8
    let service := Word.get w 16 8
    let job := BitVec.ofNat 16 (Word.get w 32 16)
    let u : State := { s with rings.sq.head := s.rings.sq.head + 1 }
    let refusedBy (reason : Nat) : Prop := exec .submissionEntry s = .next (settled s
      (writeCompletion { status := .refused, reason := reason, job := job, service := service, a := list }
        { u with rings.entryErrors := satAdd 65535 u.rings.entryErrors 1 }))
    (Word.get w 0 8 ≠ 1 ∨ Word.get w 24 8 ≠ 0 ∨ Word.get w 48 208 ≠ 0 → refusedBy 0x0105) ∧
    (Word.get w 0 8 = 1 → Word.get w 24 8 = 0 → Word.get w 48 208 = 0 →
      (s.runningJob = none → refusedBy 0x0112) ∧
      (∀ slot j, s.runningJob = some (slot, j) →
        (j.id ≠ job → refusedBy 0x0112) ∧
        (j.id = job → j.list? service list = none → refusedBy 0x0105) ∧
        (j.id = job → (j.list? service list).isSome = true → exec .submissionEntry s = .next (settled s
          (startList true { service := service, list := list, tag := s.latestTag, sheet := none, golden := false } u))) ∧
        (∀ l, j.id = job → j.list? service list = some l → admissionFail (releasedReady u) l.entries true = none →
          ∃ t : State, exec .submissionEntry s = .next (settled s t) ∧ t.rings = u.rings ∧ t.mem = s.mem ∧
            t.hasItems slot j { service := service, list := list, tag := s.latestTag, sheet := none, golden := false } (j.nextTrig service list) l.entries)))

/-- A clear of a sticky class removes its record whole and no other; VALID of MBX_FF_INFO unfreezes the First Fault (R438).  A message of a vector that
is due and not masked is sent once its holdoff has passed (R430): 0 to 1,000 µs for vectors 0 to 2, 100 µs for vector 3, none for vector 4.  That bus
mastering, the MSI-X enable and the two masks hold it back is presumed from PCI Express (log 30). -/
def Obligations.AlarmsAndInterrupts : Prop :=
  (∀ (m : Fin 8) (v : Reg) (s : State), s.hostReaches = true →
    exec (.alarmStickyClear m v) s =
      .next (settled s { s with alarms := s.alarms.filter fun r => !(r.cls / 32 == m.val && v.getLsbD (r.cls % 32)) })) ∧
  (∀ (v : Reg) (s : State), s.hostReaches = true →
    exec (.firstFaultUnfreeze v) s = .next (settled s (if v.getLsbD 31 then { s with firstFault := none } else s))) ∧
  (∀ (n : Fin 5) (s : State), s.awake = true →
    let x := nth s.link.vectors n.val {}
    let holdoff := if n.val < 3 then 1000 * min s.link.holdoff.toNat 1000 else if n.val = 3 then 100000 else 0
    let open_ := s.link.config.busMaster = true ∧ s.link.config.msixEnable = true ∧ s.link.config.msixMask = false ∧ x.masked = false
    (x.due = true → s.linkUp? = true → s.link.d3hot = false → open_ → (∀ t, x.lastSent = some t → t + holdoff ≤ s.now) →
      exec (.msiXMessage n) s = .next (settled s
        { s with link.vectors := upd s.link.vectors n fun x => { x with due := false, lastSent := some s.now } })) ∧
    (x.due = false ∨ s.linkUp? = false ∨ s.link.d3hot = true ∨ ¬ open_ ∨ (∃ t, x.lastSent = some t ∧ s.now < t + holdoff) →
      exec (.msiXMessage n) s = .next (settled s s)))

/-- The function and the Die Link (R416, R417): a Function Level Reset with no command waiting resets the function's own state alone, and a waiting
command completes ABORTED with 0x0207 under the job and the service that it names; D3hot is a bit of the function; a failure of one module of two leaves the other in use and raises 0x0B20 with
DETAIL_A 1, the loss of the link raises it with DETAIL_A 2; a link that is down trains again at a multiple of
10 ms from its failure and is counted, and the messages that became due are sent.  What a reset leaves in the configuration, no address decoded and no
message sent, and that the next access of the host comes after its driver has set the function up, are presumed and chosen (log 30); the periods of 10 ms
counted from the failure are the model's choice (log 80). -/
def Obligations.FunctionAndLink : Prop :=
  ∀ s : State, s.awake = true →
    (s.linkUp? = true → s.accepted = [] → exec .functionLevelReset s =
      .next (settled s { s with link.d3hot := false, link.holdoff := 10, link.vectors := List.replicate 5 {}, link.config := {} })) ∧
    (∀ n, s.linkUp? = true → s.accepted = [n] → ∃ t, exec .functionLevelReset s = .next (settled s
        { t with link.d3hot := false, link.holdoff := 10, link.vectors := List.replicate 5 {}, link.config := {} }) ∧
      t = completeMailbox n { status := .aborted, reason := 0x0207, job := s.jobNamed n, service := s.serviceNamed n }
        { s with accepted := [], fw.lastFail := if (s.box n).opcode = 0x0C01 then 0x0207 else s.fw.lastFail }) ∧
    (∀ v : Reg, s.linkUp? = true → s.link.d3hot = false → s.link.config.memoryEnable = false →
      ∃ u : State, exec (.registerWrite 0x18 4 v) s = .next (settled s { u with lcc.scratch := v }) ∧ u = { s with link := u.link } ∧
        u.hostReaches = true ∧ u.link.config.busMaster = true ∧ u.link.config.msixEnable = true ∧ u.link.config.msixMask = false ∧
        (∀ x ∈ u.link.vectors, x.masked = false)) ∧
    exec .d3hotEntry s = .next (settled s { s with link.d3hot := true }) ∧
    exec .d3hotExit s = .next (settled s { s with link.d3hot := false }) ∧
    (s.link.modules = 3 → exec (.dieLinkFailure (.module 0)) s = .next (settled s (raiseAlarm 0x0B20 1 0 { s with link.modules := 2 })) ∧
      exec (.dieLinkFailure (.module 1)) s = .next (settled s (raiseAlarm 0x0B20 1 0 { s with link.modules := 1 }))) ∧
    (s.linkUp? = true → exec (.dieLinkFailure .down) s = .next (settled s (raiseAlarm 0x0B20 2 0 { s with link.modules := 0, link.downAt := s.now }))) ∧
    (s.linkUp? = true ∨ s.now ≤ s.link.downAt ∨ (s.now - s.link.downAt) % 10000000 ≠ 0 →
      ∀ trained, exec (.dieLinkRetrain trained) s = .next (settled s s)) ∧
    (s.linkUp? = false → s.link.downAt < s.now → (s.now - s.link.downAt) % 10000000 = 0 → (∀ x ∈ s.link.vectors, x.due = false) →
      exec (.dieLinkRetrain 3) s = .next (settled s { s with link.modules := 3, link.retrains := satAdd 65535 s.link.retrains 1 }) ∧
      exec (.dieLinkRetrain 1) s = .next (settled s (sendVector 4 (sendVector 3 (sendVector 2 (sendVector 1 (sendVector 0
        (raiseAlarm 0x0B20 1 0 { s with link.modules := 1, link.retrains := satAdd 65535 s.link.retrains 1 }))))))) ∧
      exec (.dieLinkRetrain 0) s = .next (settled s s))

/-- BAR2 (R404, R407, R418): a word that the host may read answers its bytes, one that it may not read answers zeros and is a violation; a whole word
that it may write is stored under the code of its region, one that it may not write is a violation; a narrow write in Service mode is dropped and
counted, in Maintenance mode it is merged (R405). -/
def Obligations.Bar2Words : Prop :=
  ∀ (s : State) (k : Nat), s.hostReaches = true → k < 0x80000000 →
    let addr : BitVec 36 := BitVec.ofNat 36 (32 * k)
    (∀ w, s.hostMayRead k = true → s.reads k w = true →
      exec (.bar2Read addr 32) s = .next (settled s { s with reply := { data := wordBytes w, poisoned := false } })) ∧
    (s.hostMayRead k = false → exec (.bar2Read addr 32) s = .next (settled s
      { violate 0 (32 * k) false false false s with reply := { data := List.replicate 32 0, poisoned := false } })) ∧
    (∀ w, s.hostMayWrite k = true → exec (.bar2Write addr ((wordBytes w).map some)) s = .next (settled s (writeWord k w s))) ∧
    (∀ w, s.hostMayWrite k = false →
      exec (.bar2Write addr ((wordBytes w).map some)) s = .next (settled s (violate 0 (32 * k) false true false s))) ∧
    (∀ b, s.hostMayWrite k = true → s.memCtl.maintenance = false →
      exec (.bar2Write addr [some b]) s = .next (settled s (violate 0 (32 * k) false true true s))) ∧
    (∀ b, s.hostMayWrite k = true → s.memCtl.maintenance = true → (∀ e ∈ s.memCtl.merge, e.word ≠ k) → s.memCtl.merge.length < 64 →
      exec (.bar2Write addr [some b]) s =
        .next (settled s { s with memCtl.merge := s.memCtl.merge ++ [⟨k, some b :: List.replicate 31 none⟩] }))

/-! ## The Line Timer -/

/-- Quadrature counts of a decoded input (R36 to R38, R40).  No change of a level counts nothing; a change of both is an illegal transition, counted and without
effect on the count; a forward count below ρ > 0 takes one from ρ and leaves n and M; one at ρ = 0 adds one to n, with the carry of the machine cycle at
C, and M moves to the fraction floor(n × 65,536 / C), never backwards, on a SINGLE at once; a reverse count adds one to ρ, and at 16,777,216 the line is LOST with 0x0B44.
That the turn of R39 counts without Z as well is the model's choice (log 82). -/
def Obligations.QuadratureCounts : Prop :=
  ∀ (i : Fin 2) (a b : Bool) (s : State), s.awake = true → s.decodes i = true →
    let e := s.line.input i
    let levels (x : EncInput) : EncInput := { x with levelA := a, levelB := b }
    let move := (e.levelA, e.levelB, a, b)
    let forward := move ∈ [(false, false, true, false), (true, false, true, true), (true, true, false, true), (false, true, false, false)]
    let reverse := move ∈ [(false, false, false, true), (false, true, true, true), (true, true, true, false), (true, false, false, false)]
    let noted : State := if i.val = s.source then { s with line.forwardTimes := s.now :: s.recentForward } else s
    let below := i.val ≠ s.source ∨ s.recentForward.length < s.lineField 5 4 ∨ s.line.overspeed = true
    let k := if e.illegalWindow = s.now / 1000000 then e.illegalCount + 1 else 1
    let illegal : State :=
      { setInput i (fun x => { levels x with illegalWindow := s.now / 1000000, illegalCount := k }) s with line.illegal := satAdd 65535 s.line.illegal 1 }
    (a = e.levelA → b = e.levelB → exec (.encoderCount i a b) s = .next (settled s s)) ∧
    (a ≠ e.levelA → b ≠ e.levelB →
      (k ≠ 4 → exec (.encoderCount i a b) s = .next (settled s illegal)) ∧
      (k = 4 → s.enc1Mode ≠ 1 → s.line.state ≠ .lost → exec (.encoderCount i a b) s = .next (settled s
        { raiseAlarm 0x0B41 0 0 illegal with line.state := .lost, line.lossReason := 0x0B41, line.remoteLost := false }))) ∧
    (forward → below → 0 < e.rho ∨ s.line.state = .lost → exec (.encoderCount i a b) s = .next (settled s
      (setInput i (fun x => { levels x with forward := x.forward + 1, rho := x.rho - 1 }) noted))) ∧
    (forward → below → e.rho = 0 → s.line.state ≠ .lost → i.val = s.source → s.role = .single → e.n < s.encCounts →
      s.lineField 2 0 ≠ 1 ∨ e.sinceZ < s.encCounts + s.lineField 4 4 →
      let wraps := e.n + 1 = s.encCounts
      let n := if wraps then 0 else e.n + 1
      let cycle := s.line.genM.toNat / 65536 + if wraps then 1 else 0
      let m : LinePos := BitVec.ofNat 48 (cycle * 65536 + n * 65536 / s.encCounts)
      ∃ t : State, exec (.encoderCount i a b) s = .next (settled s t) ∧ t = { s with line := t.line } ∧
        t.line.input i = { levels e with forward := e.forward + 1, n := n, sinceZ := e.sinceZ + 1 } ∧
        t.line.m = (if keyAhead m s.line.genM then m else s.line.m) ∧ t.line.v = (if keyAhead m s.line.genM then s.line.genV else s.line.v) ∧
        t.line.state = s.line.state) ∧
    (forward → i.val = s.source → s.lineField 5 4 ≤ s.recentForward.length → s.line.overspeed = false → 0 < e.rho →
      ∃ t : State, exec (.encoderCount i a b) s = .next (settled s t) ∧ t.line.overspeed = true ∧ t.alarmSet 0x0B46 = true ∧
        t.line.input i = { levels e with forward := e.forward + 1, rho := e.rho - 1 }) ∧
    (reverse → e.rho + 1 ≠ 16777216 →
      exec (.encoderCount i a b) s = .next (settled s (setInput i (fun x => { levels x with rho := x.rho + 1 }) s))) ∧
    (reverse → e.rho + 1 = 16777216 → s.enc1Mode ≠ 1 → s.line.state ≠ .lost → exec (.encoderCount i a b) s = .next (settled s
      { raiseAlarm 0x0B44 0 0 (setInput i (fun x => { levels x with rho := x.rho + 1 }) s) with
        line.state := .lost, line.lossReason := 0x0B44, line.remoteLost := false }))

/-- Z edges, fault inputs, capture, comparison and overspeed (R39 to R42); that the release of a fault input leaves the input lost, and that counts made without Z
belong to a turn, are the model's choices (logs 59 and 82).  With e the distance ENC_Z_OFFSET − n in (−C/2, C/2]: an edge with e = 0 is accepted;
one up to ENC_Z_TOL moves n, and M where it has a place ahead, and that move counts as a Line Tick of every list keyed to M; one down to −ENC_Z_TOL adds −e to ρ; one beyond loses the line
with 0x0B42; an edge while ρ > 0 is ignored; the count at which Z has been missing for C + ENC_Z_TOL is one event 0x0B43 until the next accepted edge.  A capture writes M, V and the Global Counter while fewer than 64 stand, a further edge is counted. -/
def Obligations.EncoderEvents : Prop :=
  ∀ (i : Fin 2) (s : State), s.awake = true →
    let cur := s.line.input i
    let lost (reason : Nat) (t : State) : State :=
      { raiseAlarm reason 0 0 t with line.state := .lost, line.lossReason := BitVec.ofNat 16 reason, line.remoteLost := false }
    let accepted : State := setInput i (fun x => { x with sinceZ := 0, zMissing := false }) s
    (s.decodes i = false ∨ s.lineField 2 0 ≠ 1 ∨ 0 < cur.rho ∨ s.line.state = .lost → exec (.encoderZEdge i) s = .next (settled s s)) ∧
    (∀ e : Int, s.decodes i = true → s.lineField 2 0 = 1 → cur.rho = 0 → s.line.state ≠ .lost → cur.n < s.encCounts →
      (s.encCounts : Int) ∣ ((s.lineField 3 0 : Int) - cur.n - e) → 2 * e ≤ s.encCounts → -(s.encCounts : Int) < 2 * e →
      (e = 0 → exec (.encoderZEdge i) s = .next (settled s accepted)) ∧
      (1 ≤ e → e ≤ s.lineField 4 4 → i.val = s.source → s.role = .single →
        let n := (cur.n + e.toNat) % s.encCounts
        let cycle := s.line.genM.toNat / 65536 + (cur.n + e.toNat) / s.encCounts
        let m : LinePos := BitVec.ofNat 48 (cycle * 65536 + n * 65536 / s.encCounts)
        ∃ t : State, exec (.encoderZEdge i) s = .next (settled s t) ∧ t = { s with line := t.line } ∧
          t.line.input i = { cur with n := n, sinceZ := 0, zMissing := false } ∧ t.line.zCorrections = satAdd 255 s.line.zCorrections 1 ∧
          (keyAhead m s.line.genM = true → t.line.m = m ∧ t.line.v = s.line.genV ∧
            ∀ l, l < 4 → s.listOnV l = false → nth t.line.tickDue l false = true) ∧
          (keyAhead m s.line.genM = false → t.line.m = s.line.m ∧ t.line.v = s.line.v)) ∧
      (e < 0 → -(s.lineField 4 4 : Int) ≤ e → exec (.encoderZEdge i) s = .next (settled s
        { setInput i (fun x => { x with sinceZ := 0, zMissing := false, rho := x.rho + (-e).toNat }) s with line.zCorrections := satAdd 255 s.line.zCorrections 1 })) ∧
      ((s.lineField 4 4 : Int) < e ∨ e < -(s.lineField 4 4 : Int) → s.enc1Mode ≠ 1 → exec (.encoderZEdge i) s = .next (settled s (lost 0x0B42 s)))) ∧
    (s.decodes i = true → s.lineField 2 0 = 1 → cur.rho = 0 → s.line.state ≠ .lost → i.val ≠ s.source → s.enc1Mode = 1 →
      s.encCounts + s.lineField 4 4 ≤ cur.sinceZ → (cur.levelA, cur.levelB) = (false, false) →
      ∃ t : State, exec (.encoderCount i true false) s = .next (settled s t) ∧ (t.line.input i).zMissing = true ∧
        t.line.input (1 - i.val) = s.line.input (1 - i.val) ∧
        (cur.zMissing = false → t.alarmSet 0x0B43 = true ∧ (t.line.input i).lost = true) ∧
        (cur.zMissing = true → t.alarms = s.alarms ∧ (t.line.input i).lost = cur.lost)) ∧
    (s.decodes i = true → s.enc1Mode ≠ 1 → s.line.state ≠ .lost →
      exec (.encoderFaultInput i) s = .next (settled s (lost 0x0B40 (setInput i (fun x => { x with faultLow := true }) s)))) ∧
    (s.decodes i = true → s.enc1Mode = 1 → i.val = s.source → (s.line.input (1 - i.val)).lost = false →
      ∃ t : State, exec (.encoderFaultInput i) s = .next (settled s t) ∧ t.source = 1 - i.val ∧ t.line.m = s.line.m ∧ t.line.v = s.line.v ∧
        t.line.state = s.line.state ∧ t.alarmSet 0x0B40 = true ∧ (t.line.input (1 - i.val)).n = cur.n) ∧
    (s.decodes i = false → exec (.encoderFaultInput i) s = .next (settled s (setInput i (fun x => { x with faultLow := true }) s))) ∧
    exec (.encoderFaultInputRelease i) s = .next (settled s (setInput i (fun x => { x with faultLow := false }) s)) ∧
    (s.enc1Mode = 2 → s.lineBlock.isSome = true →
      exec .encoderCapture s = .next (settled s (if s.line.capture.length < 64 then
        { s with line.capture := s.line.capture ++ [⟨s.line.m, s.line.v, s.gcnt⟩] } else { s with line.captureDrops := satAdd 255 s.line.captureDrops 1 }))) ∧
    (s.enc1Mode ≠ 2 → exec .encoderCapture s = .next (settled s s)) ∧
    (s.now % 100000 = 0 → s.enc1Mode = 1 → s.lineBlock.isSome = true → s.line.state ≠ .lost → s.line.enc0.lost = false → s.line.enc1.lost = false →
      let a := s.line.enc0.forward
      let b := s.line.enc1.forward
      exec .encoderRedundantCompare s =
        .next (settled s (if a ≤ b + s.lineField 7 16 ∧ b ≤ a + s.lineField 7 16 then s else lost 0x0B45 s))) ∧
    (s.now % 100000 ≠ 0 → exec .encoderRedundantCompare s = .next (settled s s)) ∧
    (s.line.overspeed = true → exec .encoderOverspeedEnd s =
      .next (settled s (if s.lineField 5 4 < s.recentForward.length then s else { s with line.overspeed := false })))

/-- The line state, V and SYNC (R43, R44, R56).  At a multiple of 100,000 the state outside LOST is RUNNING where M advanced by STOP_THRESHOLD over the window and
STOPPED otherwise; at a multiple of 1,000 V follows M while RUNNING and else advances by the virtual rate, in thousandths; a SYNC edge loads the armed
value if it is ahead, refuses it if it is not, and without an arming raises 0x0B4D; an arming without an edge times out. -/
def Obligations.LinePositionsAndSync : Prop :=
  ∀ s : State, s.awake = true →
    (s.now % 100000 ≠ 0 → exec .lineStateEvaluation s = .next (settled s s)) ∧
    (s.now % 100000 = 0 → s.role ≠ .follower →
      let w := (s.line.sinceEval :: s.line.window).take (s.lineField 8 20)
      exec .lineStateEvaluation s = .next (settled s { s with
        line.window := w, line.sinceEval := 0
        line.state := if s.line.state = .lost then .lost else if s.lineField 9 1 ≤ w.sum then .running else .stopped })) ∧
    (s.now % 1000 ≠ 0 → exec .virtualAdvance s = .next (settled s s)) ∧
    (s.now % 1000 = 0 → s.role = .single →
      let rate := s.lineField 10 0
      let f := s.line.fraction + rate
      ∃ t : State, exec .virtualAdvance s = .next (settled s t) ∧ t = { s with line := t.line } ∧
        (s.line.state = .running → t.line.v = s.line.genV + BitVec.ofNat 48 s.line.sinceStep ∧ t.line.fraction = 0 ∧ t.line.generator = false) ∧
        (s.line.state ≠ .running → 0 < rate →
          t.line.v = s.line.genV + BitVec.ofNat 48 (f / 1000) ∧ t.line.fraction = f % 1000 ∧ t.line.generator = true) ∧
        (s.line.state ≠ .running → rate = 0 → t.line.v = s.line.v ∧ t.line.fraction = s.line.fraction) ∧
        (s.line.state = .running ∨ 0 < rate → t.line.m = s.line.genM) ∧ t.line.sinceStep = 0 ∧ t.line.state = s.line.state) ∧
    (s.line.syncArm = [] → exec .syncEdge s = .next (settled s (raiseAlarm 0x0B4D 0 0 s))) ∧
    (∀ x, s.line.syncArm = [x] →
      (s.now < x.value → exec .syncEdge s = .next
        { settled s (completeMailbox x.mbx {} { s with line.syncArm := [], gcnt := BitVec.ofNat 64 x.value, line.aligned := true }) with
          gcnt := BitVec.ofNat 64 x.value }) ∧
      (x.value ≤ s.now → exec .syncEdge s = .next
        (settled s (completeMailbox x.mbx { status := .refused, reason := 0x0B4E } { s with line.syncArm := [] }))) ∧
      (x.limit ≤ s.now → exec .syncTimeout s = .next
        (settled s (completeMailbox x.mbx { status := .timeout, reason := 0x0B4C } { s with line.syncArm := [] }))) ∧
      (s.now < x.limit → exec .syncTimeout s = .next (settled s s)))

/-- A Line Tick (R48 to R50): without a list that ticks nothing fires.  Where one entry is due it leaves its list, a SIGNAL sends one signal with the KEY, the
Global Counter of the tick and the LATE mark, an EVENT writes one event record, a LATE firing is counted, and a periodic entry stands in the list again at KEY + PERIOD,
marked LATE where that key is due; every list has then had its tick.  Several due entries fire in ascending key, then ascending list: their signals stand in
that order (R48).  The firing of the control-cycle entry starts one control cycle with its KEY and the Global Counter of the tick (R15). -/
def Obligations.LineTicksFire : Prop :=
  ∀ s : State, s.awake = true →
    ((∀ b ∈ s.line.tickDue, b = false) → exec .lineTick s = .next (settled s s)) ∧
    (true ∈ s.line.tickDue → s.dueEntries = [] →
      exec .lineTick s = .next (settled s { s with line.tickDue := [false, false, false, false] })) ∧
    (∀ (n : Nat) (e : DelayEntry), true ∈ s.line.tickDue → s.dueEntries = [(n, e)] → n < s.line.lists.length → s.isCycleEntry n e = false →
      let taken := (nth s.line.lists n []).filter (·.tag != e.tag)
      let key := e.key + e.period.setWidth 48
      let after := if e.period = 0 then taken else taken ++ [{ e with key := key, late := keyDue key (s.listPos n) }]
      let t : State := { s with line.tickDue := [false, false, false, false], line.lists := upd s.line.lists n fun _ => after,
                                line.lateFirings := if e.late then satAdd 65535 s.line.lateFirings 1 else s.line.lateFirings }
      (e.event = false → exec .lineTick s = .next (settled s { t with
        shu.signals := s.shu.signals ++ [{ obj := e.syncObj, inc := 1, tag := e.key.setWidth 32, sheet := none, golden := false,
                                           firing := some ⟨e.key, s.now, e.late⟩, item := none }] })) ∧
      (e.event = true → exec .lineTick s = .next (settled s (writeEvent
        { s.event 0x0000 0xFC with job := s.refJob e.owner, service := e.owner.service, a := bits e.tag.toNat 0 16, b := bits e.tag.toNat 16 16,
                                   lpos := e.key.toNat, late := e.late } t)))) ∧
    (∀ n e, (n, e) ∈ s.dueEntries ↔ n < 4 ∧ nth s.line.tickDue n false = true ∧ e ∈ s.delayList n ∧ keyDue e.key (s.listPos n) = true) ∧
    (∀ p : LinePos, (∀ x ∈ s.dueEntries, keyDistance p x.2.key < 2 ^ 46) →
      s.dueEntries.Pairwise fun x y => keyDistance p y.2.key < keyDistance p x.2.key ∨ keyDistance p y.2.key = keyDistance p x.2.key ∧ x.1 ≤ y.1) ∧
    (true ∈ s.line.tickDue → (∀ x ∈ s.dueEntries, x.2.event = false ∧ s.isCycleEntry x.1 x.2 = false) →
      ∃ t : State, exec .lineTick s = .next (settled s t) ∧ t = { s with line := t.line, shu := t.shu } ∧
        t.line.tickDue = [false, false, false, false] ∧ t.line.m = s.line.m ∧ t.line.v = s.line.v ∧
        t.shu = { s.shu with signals := s.shu.signals ++ s.dueEntries.map fun x =>
          { obj := x.2.syncObj, inc := 1, tag := x.2.key.setWidth 32, sheet := none, golden := false, firing := some ⟨x.2.key, s.now, x.2.late⟩, item := none } }) ∧
    (∀ (n : Nat) (e : DelayEntry) (slot : Nat) (j : Job), true ∈ s.line.tickDue → s.dueEntries = [(n, e)] → n < s.line.lists.length →
      s.isCycleEntry n e = true → e.event = false → s.runningJob = some (slot, j) → j.commits = true → s.smState ≠ 2 →
      ∃ t : State, exec .lineTick s = .next (settled s t) ∧
        t.shu.cycles = ({ tag := e.key.setWidth 32, gFire := s.now, key := e.key } :: s.shu.cycles).take 32 ∧ t.shu.firings = s.shu.firings + 1 ∧
        t.shu.signals = s.shu.signals ++ [{ obj := e.syncObj, inc := 1, tag := e.key.setWidth 32, sheet := none, golden := false,
                                            firing := some ⟨e.key, s.now, e.late⟩, item := none }] ∧
        t.jobs = s.jobs ∧ t.mem = s.mem)

/-- Line distribution (R42, R58, R60).  A MASTER samples M, V, state and ρ > 0 at every multiple of 1,000 and sends the sample on its Peer Links.  A sample received
in time waits, one received by a MASTER raises 0x0B4B and is ignored, a late one raises 0x0B4A and is applied on arrival; the latest sample that is due
supersedes the others, and positions never move backwards; a follower that has applied none for LINE_MSG_TIMEOUT is LOST with 0x0B49.  That SINGLE ignores a
message, that a master once heard counts until the next wake and that the message carries no tick are the model's choices (logs 61, 83 and 84). -/
def Obligations.LineDistribution : Prop :=
  ∀ s : State, s.awake = true →
    let delay := 1000 * s.lineField 13 2
    (s.now % 1000 = 0 → s.role = .master →
      let x : LineSample :=
        { g := s.now, m := s.line.genM, v := s.line.genV, st := s.line.state, reverse := decide (0 < (s.line.input s.source).rho), late := false,
          tick := s.line.genTick, link := none }
      exec .lineMessageSample s = .next (settled s (sendLine x { s with line.samples := s.line.samples ++ [x], line.genTick := false }))) ∧
    (s.now % 1000 ≠ 0 ∨ s.role ≠ .master → exec .lineMessageSample s = .next (settled s s)) ∧
    (∀ (l : Fin 7) (g : BitVec 64) (m v : LinePos) (st : LineState) (rev : Bool) (c : BitVec 16),
      let x : LineSample := { g := g.toNat, m := m, v := v, st := st, reverse := rev, late := false, link := some l.val }
      let pos := (s.peer l).farPos
      let received (t : State) : Prop := exec (.lineMessageReceive l g m v st rev c) s = .next (settled s t)
      (s.peerEnabled l = false ∨ (s.peer l).up = false → received s) ∧
      (s.peerEnabled l = true → (s.peer l).up = true →
        (s.role = .single → received s) ∧
        (s.role = .master → received (raiseAlarm 0x0B4B 0 0 s)) ∧
        (s.role = .follower → s.now ≤ g.toNat + delay →
          (s.line.masterPos = none ∨ s.line.masterPos = some pos →
            received { s with line.masterPos := some pos, line.samples := s.line.samples ++ [x] }) ∧
          (∀ p, s.line.masterPos = some p → p < pos → received (raiseAlarm 0x0B4B 0 0 s)) ∧
          (∀ p, s.line.masterPos = some p → pos < p → ∃ t : State, received t ∧ t.alarmSet 0x0B4B = true ∧
            t.line = { s.line with masterPos := some pos, samples := s.line.samples ++ [x] })) ∧
        (s.role = .follower → s.line.masterPos = some pos → g.toNat + delay < s.now → s.line.lastSample ≤ g.toNat →
          ∃ t : State, received t ∧ t.alarmSet 0x0B4A = true ∧ t.line.lateMessages = satAdd 65535 s.line.lateMessages 1 ∧
            t.line.lastSample = g.toNat ∧ t.line.lastApplied = s.now ∧
            (s.line.adopt = false → s.line.state ≠ .lost ∨ s.line.remoteLost = true →
              t.line.m = (if keyAhead m s.line.m then m else s.line.m) ∧ t.line.v = (if keyAhead v s.line.v then v else s.line.v) ∧
              t.line.state = st)))) ∧
    ((∀ x ∈ s.line.samples, s.now < x.g + delay) → exec .lineMessageApply s = .next (settled s s)) ∧
    (∀ x ∈ s.line.samples, x.g + delay ≤ s.now → (∀ y ∈ s.line.samples, y.g + delay ≤ s.now → y.g ≤ x.g ∧ (y.g = x.g → y = x)) →
      ∃ t : State, exec .lineMessageApply s = .next (settled s t) ∧ t.line.lastSample = x.g ∧ t.line.lastApplied = s.now ∧
        t.line.samples = (s.line.samples.filter fun y => s.now < y.g + delay) ∧
        (s.role = .follower → s.line.adopt = false → s.line.state ≠ .lost ∨ s.line.remoteLost = true →
          t.line.m = (if keyAhead x.m s.line.m then x.m else s.line.m) ∧ t.line.v = (if keyAhead x.v s.line.v then x.v else s.line.v) ∧
          t.line.state = x.st)) ∧
    (s.role = .follower → s.line.state ≠ .lost ∨ s.line.remoteLost = true → s.line.lastApplied + 1000 * s.lineField 14 50 ≤ s.now →
      exec .lineMsgTimeout s = .next (settled s
        { raiseAlarm 0x0B49 0 0 s with line.state := .lost, line.lossReason := 0x0B49, line.remoteLost := false })) ∧
    (s.role ≠ .follower ∨ s.line.state = .lost ∧ s.line.remoteLost = false ∨ s.now < s.line.lastApplied + 1000 * s.lineField 14 50 →
      exec .lineMsgTimeout s = .next (settled s s))

/-! ## The Shuttle -/

/-- Launch, signals and triggerings (R17, R57, R93, R97, R98, R108).  The ARMED job starts when the Global Counter has reached its launch count: its control-cycle
entry is inserted ahead of V and its launch table triggers its lists; a signal adds to the count of its object, which fires once for each THRESHOLD in it
and triggers its list at each firing; a triggering beyond a pool is refused whole with the reason of that pool; one that fits makes each entry of its list a work item.  A triggering is judged
behind the RELEASED items for which ready entries have become free (R110).  A firing releases the item that waits on the object and no other, and a firing of
a delay entry gives its KEY's sheet to the main and golden lists of the sheet loop; a signal of a SIGNAL item completes that item.  A host triggering is also
refused beyond 2,048 ready and 8,192 matching entries (R108). -/
def Obligations.LaunchAndTriggerings : Prop :=
  ∀ s : State, s.awake = true →
    (∀ slot j, s.activeJob = some (slot, j) → j.state = .armed →
      let running : State := s.setJob slot fun j => { j with state := .running }
      (s.now < j.launchAt → exec .jobLaunch s = .next (settled s s)) ∧
      (j.launchAt ≤ s.now → j.blockOf 0x10 = none → exec .jobLaunch s = .next (settled s
        { running with shu.triggerings := s.shu.triggerings ++ launchTriggerings j.launch })) ∧
      (∀ b, j.launchAt ≤ s.now → j.blockOf 0x10 = some b →
        ∃ (t : State) (e : DelayEntry), exec .jobLaunch s = .next (settled s t) ∧ t.jobs = running.jobs ∧
          t.shu = { s.shu with triggerings := s.shu.triggerings ++ launchTriggerings j.launch } ∧
          t.line = { s.line with lists := upd s.line.lists (b.field 0) (· ++ [e]) } ∧ e.event = false ∧ e.syncObj = b.field 3 ∧
          e.period = BitVec.ofNat 24 (b.field 1) ∧ e.key = nextPosition s.line.v (b.field 1) (b.field 2))) ∧
    ((∀ slot j, s.activeJob = some (slot, j) → j.state ≠ .armed) → exec .jobLaunch s = .next (settled s s)) ∧
    (∀ (x : Triggering) (launch : Word), x ∈ launchTriggerings launch ↔ ∃ i, i < 16 ∧ Word.get launch (16 * i + 15) 1 = 1 ∧
      x = { service := Word.get launch (16 * i + 8) 6, list := Word.get launch (16 * i) 8, tag := 0, sheet := none, golden := false }) ∧
    (s.shu.signals = [] → exec .signalApply s = .next (settled s s)) ∧
    (∀ m ms, s.shu.signals = m :: ms →
      let ends (u : State) : Prop :=
        exec .signalApply s = .next (settled s (match m.item with | none => u | some id => completeItem id (done) u))
      ((∀ o ∈ s.shu.syncs, o.obj ≠ m.obj) → ends { s with shu.signals := ms }) ∧
      (∀ o j slot, s.shu.syncs.find? (·.obj == m.obj) = some o → s.activeJob = some (slot, j) →
        m.firing = none ∨ (∀ b, j.sheetBlock = some b → b.field 8 ≠ m.obj) →
        let firings := (o.count + m.inc) / o.threshold
        let sheet := match m.firing with
          | none => m.sheet
          | some f => if j.isMainList o.service o.list || j.isGoldList o.service o.list then some (BitVec.ofNat 32 (f.key.toNat / 65536)) else none
        let applied : State := { s with
          shu.signals := ms
          shu.syncs := s.shu.syncs.map fun x => if x.obj == m.obj then { x with count := (o.count + m.inc) % o.threshold } else x
          shu.triggerings := s.shu.triggerings ++ if o.trigger then List.replicate firings
            { service := o.service, list := o.list, tag := m.tag, sheet := sheet, golden := m.golden } else [] }
        (firings = 0 ∨ (∀ it ∈ s.shu.items, it.phase = .waiting → Entry.waitEn it.entry = true → it.synced = false → Entry.waitSync it.entry ≠ m.obj) →
          ends applied) ∧
        (∀ it, firings ≠ 0 → m.item = none → s.shu.items = [it] → it.phase = .waiting → Entry.waitEn it.entry = true → Entry.fence it.entry = false →
          it.synced = false → Entry.waitSync it.entry = m.obj → s.shu.gets = [] → s.shu.panels = [] →
          ∃ (t : State) (x : Item), exec .signalApply s = .next (settled s t) ∧ t.shu.items = [x] ∧ x.phase = .ready ∧ x.synced = true ∧ x.id = it.id ∧
            x.entry = it.entry ∧ t.shu.signals = ms ∧ t.shu.syncs = applied.shu.syncs ∧ t.shu.triggerings = applied.shu.triggerings))) ∧
    (∀ (w : Word) (slot : Nat) (j : Job) (l : InstrList), s.rings.sq.fill ≠ 0 → s.reads (sqBase + s.rings.sq.head.toNat % 4096) w = true →
      Word.get w 0 8 = 1 → Word.get w 24 8 = 0 → Word.get w 48 208 = 0 → s.runningJob = some (slot, j) → j.id = BitVec.ofNat 16 (Word.get w 32 16) →
      j.list? (Word.get w 16 8) (Word.get w 8 8) = some l →
      let u : State := releasedReady { s with rings.sq.head := s.rings.sq.head + 1 }
      let x : Triggering := { service := Word.get w 16 8, list := Word.get w 8 8, tag := s.latestTag, sheet := none, golden := false }
      let waits := (l.entries.filter fun e => Entry.waitEn e || Entry.fence e).length
      let readies := u.generalReady + (l.entries.length - waits)
      let refusal (reason : Nat) : Prop := exec .submissionEntry s = .next (settled s (refuseTriggering j x reason true u))
      readies ≤ 3072 → u.generalMatch + waits ≤ 12288 →
      (∀ e ∈ l.entries, Entry.ordered e = true → u.flowWindow (Entry.flow e) + flowEntries l.entries (Entry.flow e) ≤ 256) →
      (2048 < readies → refusal 0x0201) ∧ (readies ≤ 2048 → 8192 < u.generalMatch + waits → refusal 0x0202)) ∧
    (s.shu.triggerings = [] → exec .listTriggering s = .next (settled s s)) ∧
    (∀ x xs, s.shu.triggerings = x :: xs →
      let u : State := releasedReady { s with shu.triggerings := xs }
      (s.runningJob = none → exec .listTriggering s = .next (settled s u)) ∧
      (∀ slot j, s.runningJob = some (slot, j) → j.list? x.service x.list = none → exec .listTriggering s = .next (settled s u)) ∧
      (∀ slot j l, s.runningJob = some (slot, j) → j.list? x.service x.list = some l →
        let waits := (l.entries.filter fun e => Entry.waitEn e || Entry.fence e).length
        let refusal (reason : Nat) : Prop := exec .listTriggering s = .next (settled s (refuseTriggering j x reason false u))
        let overWindow := ∃ e ∈ l.entries, Entry.ordered e = true ∧ 256 < u.flowWindow (Entry.flow e) + flowEntries l.entries (Entry.flow e)
        (3072 < u.generalReady + (l.entries.length - waits) → refusal 0x0201) ∧
        (u.generalReady + (l.entries.length - waits) ≤ 3072 →
          (12288 < u.generalMatch + waits → refusal 0x0202) ∧
          (u.generalMatch + waits ≤ 12288 →
            (overWindow → refusal 0x0203) ∧
            (¬ overWindow → ∃ t : State, exec .listTriggering s = .next (settled s t) ∧ t.hasItems slot j x (j.nextTrig x.service x.list) l.entries ∧
              t.jobs = (s.setJob slot (·.countTrig x.service x.list)).jobs ∧ t.mem = s.mem ∧ t.rings = s.rings ∧ t.line = s.line)))) ∧
      (∀ slot j l e, s.runningJob = some (slot, j) → j.list? x.service x.list = some l → l.entries = [e] → Entry.ordered e = false →
        s.shu.items = [] → s.shu.gets = [] → s.shu.panels = [] →
        let waits := Entry.waitEn e || Entry.fence e
        ∃ (t : State) (it : Item), exec .listTriggering s = .next (settled s t) ∧ t.shu.items = [it] ∧ it.entry = e ∧ it.id = s.shu.nextItem ∧
          it.slot = slot ∧ it.jobId = j.id ∧ it.service = x.service ∧ it.list = x.list ∧ it.index = 0 ∧ it.tag = x.tag ∧ it.sheet = x.sheet ∧
          it.trig = j.nextTrig x.service x.list ∧ it.admitted = s.now ∧ it.result = none ∧
          (Entry.waitEn e = true → it.phase = .waiting ∧ it.pool = .generalMatch) ∧
          (waits = false → it.phase = .ready ∧ it.pool = .generalReady) ∧
          t.jobs = (s.setJob slot (·.countTrig x.service x.list)).jobs ∧ t.mem = s.mem ∧ t.rings = s.rings ∧ t.line = s.line))

/-- GET (R103, R104, R288).  An engine that may not ask, or asks already, changes nothing; it takes the READY item of its class with the lowest PRIORITY, within a
level a SAFETY item first, then the earliest to become READY, or its GET stays pending; a panel that is the last of a Tensor item's width starts it.  Which units the Tracer has is the model's choice (log 97). -/
def Obligations.EngineGets : Prop :=
  (∀ (e : Engine) (s : State) (it : Item), bestFor e s = some it →
    it ∈ s.shu.items ∧ it.phase = .ready ∧ engineTakes s e (s.itemClass it) = true ∧
    ∀ x ∈ s.shu.items, x.phase = .ready → engineTakes s e (s.itemClass x) = true →
      it.priority ≤ x.priority ∧
      (it.priority = x.priority → Entry.safety x.entry = true → Entry.safety it.entry = true) ∧
      (it.priority = x.priority → Entry.safety x.entry = Entry.safety it.entry → it.order ≤ x.order)) ∧
  (∀ (e : Engine) (s : State), s.awake = true →
    (s.mayGet e = false ∨ e ∈ s.shu.gets → exec (.engineGet e) s = .next (settled s s)) ∧
    (s.mayGet e = true → e ∉ s.shu.gets →
      ((∀ n, e ≠ .panel n) →
        (bestFor e s = none → exec (.engineGet e) s = .next (settled s { s with shu.gets := s.shu.gets ++ [e] })) ∧
        (∀ it, bestFor e s = some it → exec (.engineGet e) s = .next (settled s
          { s.setItem it.id fun x => { x with phase := .running, pool := .none, engine := some e, started := s.now, epoch := s.openGate } with
            shu.dispatched := satAdd (2 ^ 64 - 1) s.shu.dispatched 1 }))) ∧
      (∀ n, e = .panel n →
        (bestFor e s = none → s.shu.panels = [] →
          exec (.engineGet e) s = .next (settled s { s with shu.gets := s.shu.gets ++ [e] })) ∧
        (∀ it, s.shu.items = [it] → it.phase = .ready → s.itemClass it = .tensor → s.shu.panels = [] → s.shu.gets = [] → tensorWidth s it = 1 →
          exec (.engineGet e) s = .next (settled s { s with
            shu.items := [{ it with phase := .running, pool := .none, engine := some e, started := s.now, epoch := s.openGate }]
            shu.panels := [(n.val, it.id)], shu.dispatched := satAdd (2 ^ 64 - 1) s.shu.dispatched 1 })) ∧
        (∀ it, s.shu.items = [it] → it.phase = .ready → s.itemClass it = .tensor → s.shu.panels = [] → s.shu.gets = [] → 1 < tensorWidth s it →
          exec (.engineGet e) s = .next (settled s { s with shu.panels := [(n.val, it.id)] })))))

/-- Items that complete (R99, R101, R102, R107, R110).  NOP, WAIT, SIGNAL and the completion of an engine's item change nothing where the item is not at that
point; a completed item outside every flow, sheet and golden pass leaves the Shuttle, sends the signal its entry asks for where its status signals, and has
its record written where it asks for one or did not end OK; an abort recorded in its place (R112) is what it ends with; a wait limit ends its item TIMEOUT with 0x0205. -/
def Obligations.ItemsComplete : Prop :=
  ∀ (id : Nat) (s : State), s.awake = true →
    (s.item? id = none → exec (.nop id) s = .next (settled s s) ∧ exec (.wait id) s = .next (settled s s) ∧ exec (.signal id) s = .next (settled s s) ∧
      exec (.itemCompletion id) s = .next (settled s s) ∧ exec (.waitLimitExpiry id) s = .next (settled s s)) ∧
    (∀ it, s.item? id = some it →
      let started : State :=
        { s.setItem id fun x => { x with phase := .running, pool := .none, started := s.now } with
          shu.dispatched := satAdd (2 ^ 64 - 1) s.shu.dispatched 1 }
      (it.phase = .ready → Entry.op it.entry = 0x0101 → exec (.nop id) s = .next (settled s (completeItem id (done .ok) started))) ∧
      (it.phase = .ready → Entry.op it.entry = 0x0202 → exec (.wait id) s = .next (settled s (completeItem id (done .ok) started))) ∧
      (it.phase ≠ .ready ∨ Entry.op it.entry ≠ 0x0101 → exec (.nop id) s = .next (settled s s)) ∧
      (it.phase ≠ .ready ∨ Entry.op it.entry ≠ 0x0202 → exec (.wait id) s = .next (settled s s)) ∧
      (it.phase ≠ .ready ∨ Entry.op it.entry ≠ 0x0201 → exec (.signal id) s = .next (settled s s)) ∧
      (it.phase = .ready → Entry.op it.entry = 0x0201 →
        let p := Entry.param it.entry
        let obj := bits p 16 16
        ((∃ o ∈ s.shu.syncs, o.obj = obj) → exec (.signal id) s = .next (settled s { started with shu.signals := s.shu.signals ++
          [{ obj := obj, inc := bits p 0 16, tag := it.tag, sheet := it.sheet, golden := it.golden, firing := none, item := some id }] })) ∧
        ((∀ o ∈ s.shu.syncs, o.obj ≠ obj) → exec (.signal id) s = .next (settled s (completeItem id (done .refused 0x0204) started)))) ∧
      (∀ r, it.phase = .running → it.result = some r → exec (.itemCompletion id) s = .next (settled s (completeItem id r s))) ∧
      (it.phase ≠ .running ∨ it.result = none → exec (.itemCompletion id) s = .next (settled s s)) ∧
      (it.phase = .waiting → 1000 * ceilDiv (it.admitted + 1000 * it.limit) 1000 ≤ s.now →
        exec (.waitLimitExpiry id) s = .next (settled s
          (completeItem id (done .timeout 0x0205) { s with shu.timeouts := satAdd 4294967295 s.shu.timeouts 1 }))) ∧
      (it.phase ≠ .waiting ∨ s.now < 1000 * ceilDiv (it.admitted + 1000 * it.limit) 1000 →
        exec (.waitLimitExpiry id) s = .next (settled s s)) ∧
      (∀ r : Result, s.shu.items = [it] → Entry.ordered it.entry = false → it.sheet = none → it.golden = false → s.shu.panels = [] →
        let x := it.aborted.getD r
        let signals := Entry.signalEn it.entry = true ∧ x.status ∉ [Status.refused, .timeout, .aborted]
        let records := x.status ≠ .ok ∨ Entry.complete it.entry = true
        let t := completeItem id r s
        t.shu.items = [] ∧ t.jobs = s.jobs ∧ t.line = s.line ∧
        (signals → t.shu.signals = s.shu.signals ++ [{ obj := Entry.signalSync it.entry, inc := 1, tag := it.tag, sheet := none, golden := false,
                                                       firing := none, item := none }]) ∧
        (¬ signals → t.shu.signals = s.shu.signals) ∧
        (records → t.rings = (writeCompletion (it.completion x) s).rings ∧ t.mem = (writeCompletion (it.completion x) s).mem) ∧
        (¬ records → t.rings = s.rings ∧ t.mem = s.mem)))

/-- Readiness and the release deadline (R21, R110, R112).  A RELEASED item becomes READY where an entry is free, and goes to a GET that waits; without a free entry it
stays.  At its release deadline, which comes once for each cycle, the work of a channel in that cycle is aborted with 0x0206, a running item's completion is recorded so, and the channel is
held. -/
def Obligations.ReadinessAndDeadline : Prop :=
  ∀ s : State, s.awake = true →
    ((∀ it ∈ s.shu.items, it.phase ≠ .released) → exec .releasedItemReady s = .next (settled s s)) ∧
    (∀ it, s.shu.items = [it] → it.phase = .released → s.shu.gets = [] → s.shu.panels = [] →
      exec .releasedItemReady s = .next (settled s { s with
        shu.items := [{ it with phase := .ready, pool := .generalReady, order := s.shu.nextOrder }], shu.nextOrder := s.shu.nextOrder + 1
        shu.peakReady := max s.shu.peakReady 1, shu.peakMatch := max s.shu.peakMatch 0 })) ∧
    (∀ it e, s.shu.items = [it] → it.phase = .released → s.itemClass it ≠ .tensor → s.shu.gets = [e] → s.shu.panels = [] →
      engineTakes s e (s.itemClass it) = true → ∃ t : State, exec .releasedItemReady s = .next (settled s t) ∧ t.shu.gets = [] ∧
        t.shu.items = [{ it with
          phase := .running, pool := .none, order := s.shu.nextOrder, engine := some e, started := s.now, epoch := s.openGate }] ∧
        t = { s with shu := t.shu }) ∧
    ((∀ it ∈ s.shu.items, it.phase = .released → s.readyEntry (s.itemClass it) = none) → exec .releasedItemReady s = .next (settled s s)) ∧
    (∀ c : Fin 16,
      (s.runningJob = none → exec (.releaseDeadline c) s = .next (settled s s)) ∧
      (∀ slot j, s.runningJob = some (slot, j) →
        (j.channelBlock c = none → exec (.releaseDeadline c) s = .next (settled s s)) ∧
        (∀ b, j.channelBlock c = some b →
          ((∀ x ∈ s.shu.cycles, s.now < x.gFire + 1000 * b.field 12 ∨ x.passed.getLsbD c = true) →
            exec (.releaseDeadline c) s = .next (settled s s)) ∧
          (∀ x, s.shu.cycles = [x] → x.gFire + 1000 * b.field 12 ≤ s.now → x.passed.getLsbD c = false →
            let ends (u : State) : Prop := exec (.releaseDeadline c) s = .next (settled s (passDeadline c x.tag (holdChannel j b x 0x0206 false u).1))
            let mine (it : Item) : Prop := it.jobId = j.id ∧ it.service = b.service ∧ it.tag = x.tag
            ((∀ it ∈ s.shu.items, ¬ mine it) → ends (afterEnds s)) ∧
            (∀ it, s.shu.items = [it] → mine it → it.phase = .running → ends ((afterEnds s).setItem it.id fun y =>
              { y with aborted := some (done .aborted 0x0206),
                       result := if Entry.op y.entry = 0x0902 then some (done .aborted 0x0206) else y.result })) ∧
            (∀ it, s.shu.items = [it] → mine it → it.phase = .waiting → ends (completeItem it.id (done .aborted 0x0206) s))))))

/-! ## The operations of the engines -/

/-- Events, delay entries, frames and sheets: JOB_EVENT (R101) writes one event; DELAY_INSERT fails the first test of R49 or appends its entry; DELAY_CANCEL
removes the entry of its TAG or finds none (R51); FRAME_TAKE takes the newest FULL frame, the frame of its sheet or the golden frame, writes the descriptor
of R335 and frees what has become stale, or waits for a frame (R334); FRAME_RETURN frees a HELD buffer (R336);
GOLDEN_INJECT answers OUTCOME (R344), its delay entry under a TAG that the model chooses (log 11); CORRECTION_SEND checks its record in the order of R340 and
keeps it (a record of a third sheet is turned away with the code of the last check, the model's choice, log 96), or compares a golden record and answers
the outcome (R345). -/
def Obligations.ControlAndFrameOperations : Prop :=
  ∀ (id : Nat) (s : State) (it : Item) (j : Job), s.awake = true →
    (s.runningItem id 0x0102 = some (it, j) → s.results (.jobEvent id) id done (writeEvent
      { s.event 0x0000 0xFD with job := it.jobId, service := it.service, a := it.list, b := it.index, value := Entry.param it.entry } s)) ∧
    (∀ sp w, s.runningItem id 0x0203 = some (it, j) → j.operandSpan it.entry 0 = some sp → s.reads sp.key w = true →
      let n := bits (Entry.param it.entry) 0 2
      let d := delayWord w
      let key := if bits (Entry.param it.entry) 2 1 = 1 then d.key + s.listPos n else d.key
      let ahead := (key - s.listPos n).toNat
      let entry : DelayEntry :=
        { key := key, period := BitVec.ofNat 24 d.period, event := d.action == 1, syncObj := d.syncObj, tag := d.tag,
          late := decide (ahead = 0 ∨ 2 ^ 47 ≤ ahead), owner := ⟨some it.slot, it.service⟩ }
      let reason : Option Nat :=
        if Word.get w 128 128 ≠ 0 then some 0x0105 else if d.period = 0xFFFFFF then some 0x0107
        else if 1 < d.action ∨ d.reserved ≠ 0 then some 0x0105 else if d.period ≠ 0 ∧ d.period < 2 * s.lineTickLu then some 0x0222
        else if d.action = 0 ∧ (∀ o ∈ s.shu.syncs, o.obj ≠ d.syncObj) then some 0x0204 else if 2 ^ 31 < ahead ∧ ahead < 2 ^ 47 then some 0x0221
        else if ∃ e ∈ nth s.line.lists n [], e.tag = d.tag then some 0x0223 else if 1024 ≤ (nth s.line.lists n []).length then some 0x0220 else none
      (∀ x, reason = some x → s.results (.delayInsert id) id (done .refused x) s) ∧
      (reason = none → s.results (.delayInsert id) id done { s with line.lists := upd s.line.lists n (· ++ [entry]) })) ∧
    (∀ sp w, s.runningItem id 0x0204 = some (it, j) → j.operandSpan it.entry 0 = some sp → s.reads sp.key w = true →
      let n := bits (Entry.param it.entry) 0 2
      let tag : Reg := BitVec.ofNat 32 (Word.get w 0 32)
      (Word.get w 32 224 ≠ 0 → s.results (.delayCancel id) id (done .refused 0x0105) s) ∧
      (Word.get w 32 224 = 0 →
        ((∃ e ∈ nth s.line.lists n [], e.tag = tag) →
          s.results (.delayCancel id) id done { s with line.lists := upd s.line.lists n (·.filter (·.tag != tag)) }) ∧
        ((∀ e ∈ nth s.line.lists n [], e.tag ≠ tag) → s.results (.delayCancel id) id (done .refused 0x0224) s))) ∧
    (∀ b, s.runningItem id 0x0801 = some (it, j) → s.camera (Entry.param it.entry % 4) = some b →
      let n := Entry.param it.entry % 4
      let mode := bits (Entry.param it.entry) 2 2
      let p := s.fiPort n
      let waits : Prop := s.staysRunning (.frameTake id)
        (setPort n (fun p => { p with take := some (id, 1000 * ceilDiv (it.started + 1000 * it.limit) 1000) }) s)
      let writes (i golden sheet : Nat) (rest : Word → Prop) (t : State) : Prop :=
        ∃ w : Word, Word.get w 0 2 = n ∧ Word.get w 2 2 = i ∧ Word.get w 4 1 = golden ∧ Word.get w 7 9 = 0 ∧ Word.get w 32 32 = sheet ∧
          Word.get w 112 16 = 0 ∧ Word.get w 192 32 = i * frameWords b % 2 ^ 32 ∧ Word.get w 224 32 = 0 ∧ rest w ∧
          let f := frameDigest j b i (writeOut j it 0 0 [⟨w, false⟩] t).1
          s.results (.frameTake id) id (done .ok 0 0 0 f.2) f.1
      let takes (i : Nat) (stale : Nat → Prop) : Prop :=
        ∃ (bufs : List FrameBuf) (gone : List Nat), writes i 0 (p.buf i).sheet.toNat (fun w => Word.get w 5 1 = b2n (p.buf i).noSheet ∧
            Word.get w 6 1 = b2n (p.buf i).skip ∧ Word.get w 16 16 = (p.buf i).number.toNat ∧ Word.get w 64 48 = (p.buf i).mFs.toNat ∧
            Word.get w 128 64 = (p.buf i).capture.toNat)
            (setPort n (fun p => { p with bufs := bufs, stale := satAdd 65535 p.stale gone.length }) s) ∧
          gone.Nodup ∧ (∀ k, k ∈ gone ↔ k < 4 ∧ k ≠ i ∧ (p.buf k).state = .full ∧ stale k) ∧
          bufs.length = 4 ∧ nth bufs i {} = { p.buf i with state := .held } ∧ (∀ k, k ∈ gone → nth bufs k {} = { p.buf k with state := .free }) ∧
          (∀ k, k < 4 → k ≠ i → k ∉ gone → nth bufs k {} = p.buf k)
      (mode = 0 → (∀ i, i < 4 → (p.buf i).state ≠ .full) → waits) ∧
      (∀ i, mode = 0 → n < s.fi.ports.length → p.bufs.length = 4 → i < 4 → (p.buf i).state = .full →
        (∀ k, k < 4 → k ≠ i → (p.buf k).state = .full → (p.buf k).order < (p.buf i).order) → takes i fun _ => True) ∧
      (mode = 1 → (∀ i sh, i < 4 → it.sheet = some sh → (p.buf i).state = .full → (p.buf i).noSheet = false → (p.buf i).sheet ≠ sh) → waits) ∧
      (∀ i sh, mode = 1 → n < s.fi.ports.length → p.bufs.length = 4 → i < 4 → it.sheet = some sh →
        (p.buf i).state = .full → (p.buf i).noSheet = false → (p.buf i).sheet = sh →
        (∀ k, k < 4 → k ≠ i → (p.buf k).state = .full → (p.buf k).noSheet = false → (p.buf k).sheet ≠ sh) →
        takes i fun k => (p.buf k).noSheet = true ∨ (p.buf k).sheet ≠ sh ∧ (sh - (p.buf k).sheet).toNat < 2 ^ 31) ∧
      (∀ sh, mode = 2 → it.sheet = some sh → writes 3 1 sh.toNat (fun w => Word.get w 16 16 = 0 ∧ Word.get w 5 2 = 0)
        { s with freeCount := s.freeCount + 2 })) ∧
    (s.runningItem id 0x0802 = some (it, j) →
      let n := Entry.param it.entry % 4
      let b := bits (Entry.param it.entry) 2 2
      (j.goldenPort n = true → b = 3 → s.results (.frameReturn id) id done s) ∧
      (j.goldenPort n = false ∨ b ≠ 3 →
        (((s.fiPort n).buf b).state = .held → s.results (.frameReturn id) id done (setBuf n b (fun x => { x with state := .free }) s)) ∧
        (((s.fiPort n).buf b).state ≠ .held → s.results (.frameReturn id) id (done .refused 0x0114) s))) ∧
    (∀ b sheet, s.runningItem id 0x0803 = some (it, j) → j.sheetBlock = some b → it.sheet = some sheet →
      let key : LinePos := BitVec.ofNat 48 (sheet.toNat * 65536 + b.field 4)
      let notDue := b.field 16 = 0 ∨ s.sheet.sheetsSince < b.field 18 ∧ s.sheet.frozen = false
      let deferred : State := { s with sheet.deferrals := satAdd 65535 s.sheet.deferrals 1 }
      let answers (o : Nat) (u : State) : Prop := s.results (.goldenInject id) id done (writeOut j it 0 0 [⟨word o, false⟩] u).1
      (notDue → answers 0 s) ∧
      (¬ notDue → s.sheet.pass = true → answers 1 s) ∧
      (¬ notDue → s.sheet.pass = false → s.realFrame j (b.field 0) = true → answers 2 deferred) ∧
      (¬ notDue → s.sheet.pass = false → s.realFrame j (b.field 0) = false → keyDue key s.line.m = true → answers 3 deferred) ∧
      (¬ notDue → s.sheet.pass = false → s.realFrame j (b.field 0) = false → keyDue key s.line.m = false → 1024 ≤ (s.delayList (b.field 1)).length →
        answers 4 deferred) ∧
      (¬ notDue → s.sheet.pass = false → s.realFrame j (b.field 0) = false → keyDue key s.line.m = false → (s.delayList (b.field 1)).length < 1024 →
        (∀ e ∈ s.delayList (b.field 1), e.tag ≠ goldenTag) → (∃ o ∈ s.shu.syncs, o.obj = b.field 9) →
        1 ≤ (key - s.listPos (b.field 1)).toNat → (key - s.listPos (b.field 1)).toNat ≤ 2 ^ 31 →
        answers 5 { s with sheet.pass := true, sheet.passFailed := false, line.lists := upd s.line.lists (b.field 1) (· ++
          [{ key := key, period := 0, event := false, syncObj := b.field 9, tag := goldenTag, late := false, owner := ⟨some it.slot, b.service⟩ }]) })) ∧
    (∀ b sp ws sheet, s.runningItem id 0x0B02 = some (it, j) → j.sheetBlock = some b → j.operandSpan it.entry 0 = some sp → Entry.param it.entry % 2 = 0 →
      ws.length = 6 + ceilDiv (b.field 11) 8 → s.readsAll sp.key ws = true → it.sheet = some sheet →
      let agrees := Word.get (nth ws 0 0) 64 16 = b.field 11 ∧ Word.get (nth ws 0 0) 80 5 = b.field 12 ∧ recordReserved ws = true ∧
        Word.get (nth ws 0 0) 0 32 = sheet.toNat
      let at_ := sheetPos sheet (b.field 3)
      let far := (keyAhead at_ s.line.m = true ∧ 131072 < keyDistance at_ s.line.m) ∨ (∃ x ∈ s.sheet.records, x.1 = sheet) ∨ 2 ≤ s.sheet.records.length
      (¬ agrees → s.results (.correctionSend id) id (done .refused 0x0114) s) ∧
      (agrees → s.releasePassed b sheet = true → s.results (.correctionSend id) id (done .aborted 0x0206)
        { s with sheet.lateRecords := satAdd 65535 s.sheet.lateRecords 1 }) ∧
      (agrees → s.releasePassed b sheet = false → far → s.results (.correctionSend id) id (done .refused 0x0105) s) ∧
      (agrees → s.releasePassed b sheet = false → ¬ far →
        s.results (.correctionSend id) id done { s with sheet.records := s.sheet.records ++ [(sheet, ws)] })) ∧
    (∀ b sp gp ws ex sheet, s.runningItem id 0x0B02 = some (it, j) → j.sheetBlock = some b → j.operandSpan it.entry 0 = some sp →
      Entry.param it.entry % 2 = 1 → j.bufferSpan (b.field 17) = some gp → ws.length = recordWords b → s.readsAll sp.key ws = true →
      ex.length = recordWords b → s.readsAll gp.key ex = true → it.sheet = some sheet →
      recordCounts ws (b.field 11) (b.field 12) = true → recordReserved ws = true → Word.get (nth ws 0 0) 0 32 = sheet.toNat →
      let g := goldenWord b ws ex (s.sheet.pass && !s.sheet.passFailed)
      let out := writeOut j it 1 0 [⟨g.1, false⟩] (if g.2 then s else { s with sheet.passFailed := true })
      s.results (.correctionSend id) id (done .ok 0 0 0 out.2) out.1)

/-- Occupancy and edge state: EPOCH_COMMIT does step 1 of its cycle (R18, R20), closes the open epoch with T0, FORCED and its REBUILD mark and opens the next
with the other log (R154, R167, R190);
EPOCH_APPLY waits for the checks of older cycles, opens the gate of the newest committed epoch, or finds it applied (R168, R189, R191); DELTA_INJECT turns
away late masks and records, judged at the item's start, hears a port, and completes once its words are taken (R159, R161, R162); a commit falls between two
units of the injection that runs, of which any number may have been processed (R164; how many is a free value, log 18), and the injection goes on from
there; EDGE_READ answers under the open gate, waits for an epoch not yet applied or for a slice of the self-test on a group that holds a bank of its edges
(the model takes group g as banks 8g to 8g + 7, log 76), and refuses another epoch (R188, R192, R371). -/
def Obligations.OccupancyOperations : Prop :=
  ∀ (id : Nat) (s : State) (it : Item) (j : Job), s.awake = true →
    (s.runningItem id 0x0301 = some (it, j) → s.occ.live = false → s.results (.epochCommit id) id done (stepOne it.slot it.tag s)) ∧
    (∀ c, s.runningItem id 0x0301 = some (it, j) → occCtxOf j = some c → s.occ.live = true → c.slice s.now = s.occ.tc → s.injectItem = none →
      let pending := s.occ.committed.isSome && !s.occ.committedApplied
      let written (k : Nat) := ∃ start, nth s.occ.markers ((s.occ.tc + k) % 32) none = some (s.occ.tc + k, start) ∧ s.now ≤ start + 1000000 * c.predMaxAge
      ∃ (u : State) (e : Epoch), s.results (.epochCommit id) id done u ∧ e.number = s.occ.openEpoch ∧ e.t0 = s.occ.tc ∧ e.log = s.occ.openLog ∧
        e.fill = s.occ.openFill ∧ e.rebuild = (s.occ.openRebuild || decide (1 < s.occ.boundaries) || pending) ∧
        (∀ k, k < 16 → (e.forced.getLsbD k = true ↔ ¬ written k)) ∧
        u.occ = { s.occ with committed := some e, committedApplied := false, superseded := s.occ.superseded || pending,
                             openEpoch := s.occ.openEpoch + 1, openLog := !s.occ.openLog, openFill := 0, openRebuild := false, boundaries := 0 } ∧
        u.mem = s.mem ∧ u.trc = s.trc ∧ u.shu.cycles = (stepOne it.slot it.tag s).shu.cycles ∧ u.chans = (stepOne it.slot it.tag s).chans ∧
        u.jobs = (stepOne it.slot it.tag s).jobs) ∧
    (∀ c x, s.runningItem id 0x0301 = some (it, j) → occCtxOf j = some c → s.occ.live = true → c.slice s.now = s.occ.tc →
      (stepOne it.slot it.tag s).injectItem = some x →
      ∃ (n : Nat) (v u : State) (e : Epoch), s.results (.epochCommit id) id done u ∧
        (v = { stepOne it.slot it.tag s with freeCount := s.freeCount + 1 } ∨
          v = injectSome c n { stepOne it.slot it.tag s with freeCount := s.freeCount + 1 }) ∧
        e.number = s.occ.openEpoch ∧ e.log = s.occ.openLog ∧ e.fill = v.occ.openFill ∧ u.occ.injecting = v.occ.injecting ∧
        u.occ.committed = some e ∧ u.occ.openEpoch = s.occ.openEpoch + 1 ∧ u.occ.openLog = !s.occ.openLog ∧ u.occ.openFill = 0 ∧ u.mem = v.mem) ∧
    (∀ c p d x t, s.runningItem id 0x0303 = some (it, j) → s.occCtx = some c → j.operandSpan it.entry 0 = some p → j.operandSpan it.entry 1 = some d →
      c.slice s.now = s.occ.tc → s.occ.injecting = some x → x.item = it.id →
      let q := injectParam x.param.toNat
      runProg (injectUnits c it q d.key x.next (if q.form = 0 then q.count else 32768)) { s with occ.loadBad := x.bad, occ.injecting := none } = (t, .ok ()) →
      s.results (.deltaInject id) id (if t.occ.loadBad then Fail.result { status := .poisoned, reason := 0x0A01 } else done)
        (within { occ := true } s t)) ∧
    (s.runningItem id 0x0302 = some (it, j) → s.occ.live = false ∨ s.occ.committed = none → s.results (.epochApply id) id done s) ∧
    (∀ c e, s.runningItem id 0x0302 = some (it, j) → s.occCtx = some c → s.occ.committed = some e →
      (s.occ.committedApplied = true → j.operandSpan it.entry 0 = none → s.results (.epochApply id) id done s) ∧
      (s.occ.committedApplied = false → s.applyWaits it = true → s.staysRunning (.epochApply id) s) ∧
      (s.occ.committedApplied = false → s.applyWaits it = false →
        ∃ (u : State) (r : Result), s.results (.epochApply id) id r u ∧
          (r.status = if (applyEpoch c e s).1.occ.loadBad || ((applyEpoch c e s).1.trc.fault && !s.trc.fault) then Status.poisoned else .ok) ∧
          u.trc.gate = some e.number ∧ u.trc.appliedEpoch = e.number ∧ u.trc.firstApply = false ∧ u.occ.applied = some e ∧ u.occ.committedApplied = true ∧
          u.occ.superseded = false)) ∧
    (s.runningItem id 0x0303 = some (it, j) → s.occCtx = none → s.results (.deltaInject id) id (done .refused 0x0105) s) ∧
    (∀ c p d w, s.runningItem id 0x0303 = some (it, j) → s.occCtx = some c → j.operandSpan it.entry 0 = some p → j.operandSpan it.entry 1 = some d →
      c.slice s.now = s.occ.tc → s.halfDone it.id = none → s.reads p.key w = true →
      let x := injectParam w.toNat
      let type := ((j.service it.service).map (·.serviceType)).getD 0
      let s0 : State := { s with occ.loadBad := false }
      let late : State := { s0 with occ.lateMasks := satAdd 65535 s0.occ.lateMasks 1 }
      let answers (t : State) : Prop := s.results (.deltaInject id) id
        (if t.occ.loadBad then Fail.result { status := .poisoned, reason := 0x0A01 } else done) (within { occ := true } s t)
      (∀ f, injectCheck c type d.len x = .error f → s.results (.deltaInject id) id f.result s0) ∧
      (injectCheck c type d.len x = .ok () →
        (x.form = 1 → x.time + 1000000 * c.block.field 8 < it.started →
          s.results (.deltaInject id) id done (outOfRange x.port 0 it.jobId it.service late)) ∧
        (x.form = 1 → it.started ≤ x.time + 1000000 * c.block.field 8 →
          let heard : State := { s0 with occ.lastObs := s.occ.lastObs.set x.port s.now, occ.obsTimeout := s.occ.obsTimeout &&& ~~~(1#4 <<< x.port) }
          (∃ (u : State) (r : Result), s.results (.deltaInject id) id r u ∧ r.status ∈ [Status.ok, .poisoned] ∧
            u.occ.lastObs = heard.occ.lastObs ∧ u.occ.obsTimeout = heard.occ.obsTimeout) ∧
          (∀ t, runProg (observeMask c x.port d.key (List.range sliceWords)) heard = (t, .ok ()) → answers t)) ∧
        (x.form = 2 → x.time + x.predSlice ≤ c.slice it.started ∨ c.slice it.started + 16 < x.time + x.predSlice →
          s.results (.deltaInject id) id done late) ∧
        (∀ t, x.form = 2 → c.slice it.started < x.time + x.predSlice → x.time + x.predSlice ≤ c.slice it.started + 16 →
          runProg (predictMask c (x.time + x.predSlice) d.key (List.range sliceWords)) (openPred c (x.time + x.predSlice) x.runStart s0) =
            (t, .ok ()) → answers t) ∧
        (∀ v, x.form = 0 → x.count = 1 → s.reads d.key v = true →
          let rec_ := Word.get v 0 32
          let dist := (bits rec_ 24 8 + 256 - s.occ.tc % 256) % 256
          (240 ≤ dist → s.results (.deltaInject id) id done { s0 with occ.lateRecords := satAdd 65535 s.occ.lateRecords 1 }) ∧
          (15 < dist → dist < 240 → s.results (.deltaInject id) id done
            (outOfRange 5 rec_ it.jobId it.service { s0 with occ.drops := satAdd 4294967295 s.occ.drops 1 })) ∧
          (dist ≤ 15 → answers
            (loggedChange c (s.occ.tc + dist) (bits rec_ 0 23 / 256) (setInj c (s.occ.tc + dist) (bits rec_ 0 23) (rec_.testBit 23)) s0))))) ∧
    (∀ p l o w, s.runningItem id 0x0304 = some (it, j) → j.operandSpan it.entry 0 = some p → j.operandSpan it.entry 1 = some l →
      j.operandSpan it.entry 2 = some o → s.reads p.key w = true →
      (∀ f, edgeReadCheck w.toNat l.len o.len = .error f → s.results (.edgeRead id) id f.result s) ∧
      (∀ v e, edgeReadCheck w.toNat l.len o.len = .ok () → Word.get w 64 32 = 1 → s.reads l.key v = true → e = Word.get v 0 32 →
        let epoch : Reg := BitVec.ofNat 32 w.toNat
        ((2097152 ≤ e ∨ ∀ x, s.pat.active = some x → x.edges ≤ e) → s.results (.edgeRead id) id (done .refused 0x0105) s) ∧
        (∀ x, s.pat.active = some x → e < x.edges → e < 2097152 →
          (∀ a m, s.occ.committed = some m → s.occ.committedApplied = false → m.number = epoch → s.occ.applied = some a →
            s.trc.gate ≠ some epoch → s.staysRunning (.edgeRead id) s) ∧
          (s.occ.committed = none → s.results (.edgeRead id) id (done .refused 0x0306) s) ∧
          (∀ a m rw, s.occ.committed = some m → s.occ.applied = some a → s.trc.gate = some epoch → a.number = epoch →
            s.reads (edgeKey e) rw = true → s.testedGroups.getLsbD (e % 64 / 8) = false →
            let rec_ := Word.get rw (128 * edgeHalf e) 128
            let out := word (if w.getLsbD 32 then rec_ else blockedMask s a rec_)
            s.results (.edgeRead id) id (done .ok 0 0 0 (digestGots j 2 0 [⟨out, false⟩])) (writeWord o.key out s)) ∧
          (∀ a m, s.occ.committed = some m → s.occ.applied = some a → s.trc.gate = some epoch → a.number = epoch →
              s.testedGroups.getLsbD (e % 64 / 8) = true →
            s.staysRunning (.edgeRead id) s))))

/-- Search, channel B and the Seam.  SEARCH and DARN wait while no gate is open (R188, R208) and where they read a bank of a group under test (R371; the
model takes group g as banks 8g to 8g + 7, log 76); a SEARCH after a repair of
its cycle changes SEARCH_RESULT alone (R211), one at rest at its goal writes a list without a candidate, any other the list of its candidates (R210, R212);
a DARN whose goal is new, whose trajectory is not GO or whose path is clear writes its header alone, one that gives up writes its header, counts and writes
event 0x0404 with the cause, and a repair writes its list, of which the first K stand (R215 to R217, log 72);
CHECK_B of a record that is not VALID or not of the applied epoch answers UNCHECKED or STALE, and else the verdict of its walk (R354; its budget counted in
the units of log 12); STITCH and HOLD release a channel at most once in a cycle (R218, R219, R360), a STITCH of an unreadable or a disagreed list and one
whose walk disagrees end DISAGREE, counted, alarmed and latched at the limit (R357, R358, R365), and one whose copies of the Seam differ releases nothing of
its own (R361; log 69); a KERNEL whose inputs can be read completes OK and its write operand holds what the library's kernel gives, an opaque function of the
inputs, the draws and its reduction (logs 7 and 77). -/
def Obligations.SearchAndSeamOperations : Prop :=
  ∀ (id : Nat) (s : State) (it : Item) (j : Job), s.awake = true →
    (∀ b p c list, j.itemChannel it = some b → s.pat.active = some p → s.occCtx = some c → j.operandSpan it.entry 0 = some list →
      let scratch (u : State) : State := match j.operandSpan it.entry 1 with | some sp => forgetWords sp.key sp.len u | none => u
      let reach : Reach := { trc := true, chans := true, pse := true }
      let s0 : State := { s with trc.readGroups := 0 }
      let free (u : State) : Prop := u.trc.readGroups &&& s.testedGroups = 0#8
      (it.epoch.or s.openGate = none →
        (s.runningItem id 0x0401 = some (it, j) → s.staysRunning (.search id) s) ∧
        (s.runningItem id 0x0402 = some (it, j) → s.staysRunning (.darn id) s)) ∧
      (∀ e, it.epoch.or s.openGate = some e →
        (∀ w x t en v, s.runningItem id 0x0401 = some (it, j) → s.reads list.key w = true → Word.get w 96 32 ≠ it.tag.toNat →
          runProg (searchSetup it j b p c e) s0 = (t, .ok x) → runProg (searchEnd x (t.chan (b.field 0))) t = (v, .ok en) → ¬ free v →
          s.staysRunning (.search id) s) ∧
        (∀ x t pl t1 t2 t3 a, s.runningItem id 0x0402 = some (it, j) → runProg (searchSetup it j b p c e) s0 = (t, .ok x) →
          x.goalChanged = false → kindAt (t.chan (b.field 0)).history x.gBase = .go → planAt (t.chan (b.field 0)).history x.gBase = some pl →
          runProg (aheadClear x) t = (t1, .ok true) → runProg (activePath x pl) t1 = (t2, .ok a) →
          runProg (firstBlocked x pl.gBase a.windows 0) t2 = (t3, .ok none) → ¬ free t3 → s.staysRunning (.darn id) s) ∧
        (∀ w x t en v, s.runningItem id 0x0401 = some (it, j) → s.reads list.key w = true → Word.get w 96 32 ≠ it.tag.toNat →
          runProg (searchSetup it j b p c e) s0 = (t, .ok x) → runProg (searchEnd x (t.chan (b.field 0))) t = (v, .ok en) → free v →
          let cs := searchCandidates x (t.chan (b.field 0)).goal t.boardPos en.run
          let h : ListHeader :=
            { epoch := e.number.toNat, count := cs.length, result := en.result, channel := b.field 0, budget := en.run.budget, full := en.run.full,
              goalChanged := x.goalChanged, darn := 0, cause := 0, expansions := en.run.expansions, tag := it.tag.toNat, node := x.start.node,
              time := x.start.tau }
          let gs := clean (candidateList x.k h cs)
          en.status ≠ .refused →
          ∃ u : State, s.results (.search id) id (done en.status en.reason 0 0 (digestGots j 0 0 gs)) u ∧
            u.mem = (scratch (writeGots list.key gs v)).mem ∧ u.pse.searches = satAdd 4294967295 v.pse.searches 1) ∧
        (∀ w, s.runningItem id 0x0401 = some (it, j) → s.reads list.key w = true → Word.get w 96 32 = it.tag.toNat → b.field 4 = 1 →
          Word.get w 48 3 = 2 →
          let out := word (setBits w.toNat 37 3 4)
          s.results (.search id) id (done .ok 0 0 0 (digestGots j 0 0 [⟨out, false⟩])) (countSearchItem (scratch (writeWord list.key out s)))) ∧
        (∀ w x t, s.runningItem id 0x0401 = some (it, j) → s.reads list.key w = true → Word.get w 96 32 ≠ it.tag.toNat →
          runProg (searchSetup it j b p c e) s0 = (t, .ok x) → free t → kindAt (t.chan (b.field 0)).history x.gBase = .rest → x.start.ahead = none →
          x.start.node = (t.chan (b.field 0)).goal → x.goalChanged = false →
          let h : ListHeader :=
            { epoch := e.number.toNat, count := 0, result := 5, channel := b.field 0, budget := false, full := false, goalChanged := false, darn := 0,
              cause := 0, expansions := 0, tag := it.tag.toNat, node := x.start.node, time := x.start.tau }
          let gs := clean (candidateList x.k h [])
          ∃ u : State, s.results (.search id) id (done .ok 0 0 0 (digestGots j 0 0 gs)) u ∧
            u.mem = (scratch (writeGots list.key gs t)).mem ∧ u.pse.searches = satAdd 4294967295 t.pse.searches 1) ∧
        (∀ x t, s.runningItem id 0x0402 = some (it, j) → runProg (searchSetup it j b p c e) s0 = (t, .ok x) →
          let header (v : State) (w : Word) (result cause : Nat) : Prop :=
            let out := word (setBits (setBits (setBits w.toNat 48 3 result) 51 3 cause) 96 32 it.tag.toNat)
            free v → s.results (.darn id) id (done .ok 0 0 0 (digestGots j 0 0 [⟨out, false⟩]))
              { within reach s (scratch (writeWord list.key out v)) with trc.readGroups := s.trc.readGroups }
          let gives (cause : Nat) (v : State) : Prop :=
            let u := writeEvent { v.event 0x0404 72 with job := it.jobId, service := it.service, a := b.field 0, b := cause, value := it.tag.toNat }
              { v with pse.gaveUp := satAdd 65535 v.pse.gaveUp 1 }
            ∀ w, u.reads list.key w = true → header u w 3 cause
          let hist := (t.chan (b.field 0)).history
          (∀ w, t.reads list.key w = true → x.goalChanged = true ∨ kindAt hist x.gBase ≠ .go → header t w 4 0) ∧
          (∀ pl t1, x.goalChanged = false → kindAt hist x.gBase = .go → planAt hist x.gBase = some pl →
            runProg (aheadClear x) t = (t1, .ok false) → gives 1 t1) ∧
          (∀ pl t1 t2 t3 a, x.goalChanged = false → kindAt hist x.gBase = .go → planAt hist x.gBase = some pl →
            runProg (aheadClear x) t = (t1, .ok true) → runProg (activePath x pl) t1 = (t2, .ok a) →
            (∀ w, runProg (firstBlocked x pl.gBase a.windows 0) t2 = (t3, .ok none) → t3.reads list.key w = true → header t3 w 1 0) ∧
            (∀ n run depart t4, runProg (firstBlocked x pl.gBase a.windows 0) t2 = (t3, .ok (some n)) →
              runProg (repair x a (t.chan (b.field 0)).goal n) t3 = (t4, .ok (run, depart)) → run.emitted = [] →
              gives (if run.budget then 3 else if run.full then 4 else 2)
                (setChan (b.field 0) (fun c => { c with scratchUses := c.scratchUses + 1 })
                  { t4 with pse.expansions := satAdd (2 ^ 64 - 1) t4.pse.expansions run.expansions })) ∧
            (∀ n run depart t4, runProg (firstBlocked x pl.gBase a.windows 0) t2 = (t3, .ok (some n)) →
              runProg (repair x a (t.chan (b.field 0)).goal n) t3 = (t4, .ok (run, depart)) → run.emitted ≠ [] → free t4 →
              let cs := (darnCandidates x a depart (t.chan (b.field 0)).goal t.boardPos run).take x.k
              let h : ListHeader :=
                { epoch := e.number.toNat, count := cs.length, result := 0, channel := b.field 0, budget := run.budget, full := run.full,
                  goalChanged := false, darn := 2, cause := 0, expansions := run.expansions, tag := it.tag.toNat, node := x.start.node,
                  time := x.start.tau }
              let gs := clean (candidateList x.k h cs)
              ∃ u : State, s.results (.darn id) id (done .ok 0 0 0 (digestGots j 0 0 gs)) u ∧ u.mem = (scratch (writeGots list.key gs t4)).mem ∧
                u.pse.darned = satAdd 65535 t4.pse.darned 1))))) ∧
    (∀ b rec_ model out ws, s.runningItem id 0x0901 = some (it, j) → (it.core, kernelOf it.entry) ∈ s.shu.kernels →
      fetchKernel it s = (s, true) → j.itemChannel it = some b →
      j.operandSpan it.entry 0 = some rec_ → j.operandSpan it.entry 2 = some model → j.operandSpan it.entry 3 = some out → ws.length = 81 →
      s.readsAll rec_.key ws = true →
      let applied := (s.occ.applied.map (·.number.toNat)).getD 0
      let answers (verdict cause : Nat) : Prop :=
        let v := Verdict.word { verdict := verdict, cause := cause } ws applied
        s.results (.checkB id) id (done .ok 0 0 0 (digestGots j 3 0 [⟨v, false⟩])) (writeWord out.key v
          { s with sm.verdictBlocked := satAdd 65535 s.sm.verdictBlocked 0, sm.verdictBudget := satAdd 65535 s.sm.verdictBudget 0 })
      (recField ws 0 1 = 0 → answers 2 6) ∧
      (recField ws 0 1 = 1 → s.occ.applied = none ∨ applied ≠ recField ws 64 32 → answers 3 0) ∧
      (∀ e p c t v, recField ws 0 1 = 1 → s.occ.applied = some e → e.number.toNat = recField ws 64 32 → s.pat.active = some p → s.occCtx = some c →
        runProg (checkWalk it j b p c e ws model) s = (t, .ok v) →
        let w := v.word ws applied
        s.results (.checkB id) id (done .ok 0 0 0 (digestGots j 3 0 [⟨w, false⟩])) (within { shu := true, sm := true } s (writeWord out.key w
          { t with sm.verdictBlocked := satAdd 65535 t.sm.verdictBlocked (if v.verdict = 1 then 1 else 0),
                   sm.verdictBudget := satAdd 65535 t.sm.verdictBudget (if v.cause = 5 then 1 else 0) })))) ∧
    (s.runningItem id 0x0C01 = some (it, j) → (it.core, kernelOf it.entry) ∈ s.shu.kernels → fetchKernel it s = (s, true) →
      (∀ i sp, i ∈ operandsWith it.entry 0 → j.operandSpan it.entry i = some sp → ∃ ws, ws.length = sp.len ∧ s.readsAll sp.key ws = true) →
      ∃ (u : State) (d : Nat), s.results (.kernel id) id (done .ok 0 0 0 d) u ∧ u.shu = s.shu ∧ u.sm = s.sm) ∧
    (∀ (o : Nat) (sp : Span) (ins : List (List Word)), s.runningItem id 0x0C01 = some (it, j) → (it.core, kernelOf it.entry) ∈ s.shu.kernels →
      fetchKernel it s = (s, true) → operandsWith it.entry 1 = [o] → j.operandSpan it.entry o = some sp → ins.length = (operandsWith it.entry 0).length →
      (∀ k i, (operandsWith it.entry 0)[k]? = some i → ∃ ip, j.operandSpan it.entry i = some ip ∧ (nth ins k []).length = ip.len ∧
        s.readsAll ip.key (nth ins k []) = true) →
      let d := itemDraws it j
      let call : Config.KernelCall := { library := s.fw.digest, param := BitVec.ofNat 32 (Entry.param it.entry), inputs := ins }
      let reduced : Config.KernelCall := { call with reduced := kernelReduction s j call d }
      let a := kernelAtomics it j (Config.kernelAtomics reduced d) reduced s
      let gs := (clean (Config.kernelOutput a.2.1 d o)).take sp.len
      ∃ (u : State) (g : Nat), s.results (.kernel id) id (done .ok 0 0 0 g) u ∧ u.mem = (writeGots sp.key gs a.1).mem) ∧
    (∀ b list recs vers, s.runningItem id 0x0902 = some (it, j) → j.itemChannel it = some b → j.operandSpan it.entry 0 = some list →
      j.operandSpan it.entry 1 = some recs → j.operandSpan it.entry 2 = some vers →
      let ch := b.field 0
      let released := it.tag ∈ (s.chan ch).released
      let late := (s.cycleOf it.tag).gFire + 1000 * b.field 12 ≤ s.now
      (s.smState = 2 → s.results (.stitch id) id (done .refused 0x0906) (noteReason ch it.tag 0x0906 s)) ∧
      (s.smState ≠ 2 → released → s.results (.stitch id) id (done .refused 0x0114 3) s) ∧
      (s.smState ≠ 2 → ¬ released → late → s.results (.stitch id) id (done .aborted 0x0206) (noteReason ch it.tag 0x0206 s)) ∧
      (s.smState ≠ 2 → ¬ released → ¬ late →
        (∀ t, stitchWalk it b list ⟨recs, vers⟩ s = (t, none) →
          s.staysRunning (.stitch id) (within { shu := true, trc := true, chans := true, pse := true, sheet := true, sm := true, fp := true } s t)) ∧
        (∀ t w r, stitchWalk it b list ⟨recs, vers⟩ s = (t, some (w, .noPath r)) →
          ∃ u : State, s.results (.stitch id) id (done .noFreshPath r w.examined w.dropped) u ∧ u.mem = t.mem ∧
            (u.chan ch).released = (t.chan ch).released) ∧
        (∀ t w r, stitchWalk it b list ⟨recs, vers⟩ s = (t, some (w, .refused r)) →
          ∃ u : State, s.results (.stitch id) id (done .refused r) u ∧ u.mem = t.mem ∧ (u.chan ch).released = (t.chan ch).released) ∧
        (∀ t w reason row, ch < t.chans.length → stitchWalk it b list ⟨recs, vers⟩ s = (t, some (w, .disagree reason row)) →
          let age := (firstIndex (fun (c : Cycle) => c.tag == it.tag) t.shu.cycles 0).getD 0
          let marks := (t.shu.firings - age) :: (t.chan ch).disagreeAt
          let recent := (marks.filter fun f => t.shu.firings < f + t.devField 7 5 1000).length
          ∃ u : State, s.results (.stitch id) id (done .disagree reason w.examined w.dropped) u ∧ (u.chan ch).released = (t.chan ch).released ∧
            (u.chan ch).disagreeAt = marks ∧ u.alarmSet reason = true ∧ u.sm.lastDisagree = BitVec.ofNat 32 (ch + at_ row 4 4 + at_ it.tag.toNat 16 16) ∧
            u.sm.walks0901 = (if reason = 0x0901 then satAdd 65535 t.sm.walks0901 1 else t.sm.walks0901) ∧
            u.sm.walks0902 = (if reason = 0x0901 then t.sm.walks0902 else satAdd 65535 t.sm.walks0902 1) ∧
            (t.devField 7 4 2 ≤ recent → u.sm.latched.getLsbD 4 = true) ∧
            (recent < t.devField 7 4 2 → u.sm.latched = t.sm.latched ∧ (u.chan ch).holdReason = some (it.tag, BitVec.ofNat 16 reason))) ∧
        (∀ t gs, s.sm.walk = none → readKept it.requester (b.field 7) list s = (t, gs) →
          (anyBad gs = true → ∃ (u : State) (x y : Nat), s.results (.stitch id) id (done .disagree 0x0902 x y) u) ∧
          (anyBad gs = false → (stitchCount (nth (gotData gs) 0 0).toNat list ⟨recs, vers⟩ = .ok ()) → list.key ∈ s.tks.disagreed →
            ∃ (u : State) (x y : Nat), s.results (.stitch id) id (done .disagree 0x0901 x y) u)) ∧
        (∀ t w, ch < t.chans.length → t.upset ≠ some .seamCopy → stitchWalk it b list ⟨recs, vers⟩ s = (t, some (w, .atGoal)) →
          ∃ (u : State) (d : Nat), s.results (.stitch id) id (done .ok 0 w.examined w.dropped d) u ∧ it.tag ∈ (u.chan ch).released ∧
            (u.chan ch).lastHold = false) ∧
        (∀ t w r, ch < t.chans.length → t.upset = some .seamCopy → stitchWalk it b list ⟨recs, vers⟩ s = (t, some (w, .stitched r)) →
          ∃ u : State, s.results (.stitch id) id (done .aborted 0x0208) u ∧ u.sm.lastFail = 0xFFF0#16) ∧
        (∀ t w r, ch < t.chans.length → t.upset ≠ some .seamCopy → stitchWalk it b list ⟨recs, vers⟩ s = (t, some (w, .stitched r)) →
          ∃ (u : State) (d : Nat), s.results (.stitch id) id (done .ok 0 w.examined w.dropped d) u ∧ it.tag ∈ (u.chan ch).released ∧
            u.sm.stitches = satAdd 4294967295 t.sm.stitches 1 ∧ (u.chan ch).lastHold = false))) ∧
    (s.runningItem id 0x0903 = some (it, j) →
      (j.itemChannel it = none → s.results (.hold id) id done s) ∧
      (∀ b, j.itemChannel it = some b →
        (it.tag ∈ (s.chan (b.field 0)).released → s.results (.hold id) id done s) ∧
        (it.tag ∉ (s.chan (b.field 0)).released → b.field 0 < s.chans.length → s.upset ≠ some .seamCopy →
          ∃ u : State, s.results (.hold id) id done u ∧ it.tag ∈ (u.chan (b.field 0)).released ∧ (u.chan (b.field 0)).lastHold = true ∧
            u.sm.holdCount = satAdd 4294967295 s.sm.holdCount 1 ∧ u.pse.holds = satAdd 65535 s.pse.holds 1) ∧
        (it.tag ∉ (s.chan (b.field 0)).released → b.field 0 < s.chans.length → s.upset = some .seamCopy →
          ∃ u : State, s.results (.hold id) id done u ∧ it.tag ∈ (u.chan (b.field 0)).released ∧ u.sm.lastFail = 0xFFF0#16)))

/-- The Solver Lanes: a slot that another item of a lane holds refuses with 0x0111 and that lane (R254); STRUCTURE_LOAD of an image that passes R234 leaves its
structure in the slot buffer; QP_SOLVE on a loaded slot writes the record of its solve (R244, R249, R250); EASE at a position beyond COUNT writes a record
with VALID 0 and cause EMPTY (R271, R272), and any other ends with what its program answers, counted; LSQ_FIT accumulates a row that passes R251, refuses another,
and SOLVE writes the record of its solve (R252, R253).  That a deadline and a budget end a solve by the nominal times of its steps is the model's choice
(log 12), as are how much a solve reads of its slot and keeps there, and what ITERATIONS of a fit counts (logs 73, 74, 94 and 95). -/
def Obligations.SolverOperations : Prop :=
  ∀ (id : Nat) (s : State) (it : Item) (j : Job), s.awake = true →
    (∀ image slot, s.runningItem id 0x0501 = some (it, j) → j.operandSpan it.entry 0 = some image → j.operandSpan it.entry 1 = some slot →
      (∃ (u : State) (r : Result), s.results (.structureLoad id) id r u ∧
        (r.status = .ok → u.se.loadsOk = satAdd 65535 s.se.loadsOk 1 ∧ ∃ x ∈ u.se.slots, x.at_ = slot.key) ∧
        (r.status ≠ .ok → u.se.loadsRefused = satAdd 65535 s.se.loadsRefused 1)) ∧
      (∀ lane, s.slotHolder id slot.key = some lane → s.results (.structureLoad id) id (done .refused 0x0111 lane)
        { s with se.busyRefused := satAdd 65535 s.se.busyRefused 1, se.loadsRefused := satAdd 65535 s.se.loadsRefused 1 }) ∧
      (∀ ws x pads, s.slotHolder id slot.key = none → 2 ≤ image.len → ws.length = strWords (ws.take 2) → 2 ≤ ws.length → ws.length ≤ image.len →
        s.readsAll image.key ws = true → strHeaderCheck (ws.take 2) = .ok () → slotWords (ws.take 2) ≤ slot.len →
        parseStructure slot.key ws = (x, pads) → strChecks x pads ws = .ok () → loadTimeOk x = true →
        s.results (.structureLoad id) id done { setSlotBuffer
            { x with words := slotWords (ws.take 2), fixed := slotWords (ws.take 2) - factorWords (ws.take 2) } (writePrivate slot.key (slotWords (ws.take 2)) s) with
          se.loadsOk := satAdd 65535 s.se.loadsOk 1 })) ∧
    (∀ p slot out w x (record : List Word), s.runningItem id 0x0503 = some (it, j) → j.operandSpan it.entry 0 = some p → j.operandSpan it.entry 1 = some slot →
      j.operandSpan it.entry 2 = none → j.operandSpan it.entry 3 = some out → s.reads p.key w = true →
      (∃ sw : List Word, sw.length = min slot.len (match s.slot? slot.key with | some y => (if y.factor.isSome then y.words else y.fixed) | none => 32) ∧
        s.readsAll slot.key sw = true) →
      let q := solveParams w.toNat
      (∀ f, solveParamCheck q 65534 = .error f → s.results (.qpSolve id) id f.result (countSolveItem s)) ∧
      (solveParamCheck q 65534 = .ok () → s.slot? slot.key = none → s.results (.qpSolve id) id (done .refused 0x0114 2) (countSolveItem s)) ∧
      (solveParamCheck q 65534 = .ok () → s.slot? slot.key = some x → x.kind = 0 → s.slotHolder id slot.key = none → (q.warm = 2 ∨ record = []) →
        (q.warm = 2 → record.length = x.recordWords ∧ s.readsAll out.key record = true) →
        (q.resume = true → q.warm ≠ 0 → s.results (.qpSolve id) id (done .refused 0x0114 3) (countSolveItem s)) ∧
        (q.resume = true → q.warm = 0 → x.resume = none → s.results (.qpSolve id) id (done .refused 0x0114 1) (countSolveItem s)) ∧
        (q.resume = false ∨ q.warm = 0 ∧ x.resume.isSome = true →
          (out.len < x.recordWords → s.results (.qpSolve id) id (done .refused 0x0101) (countSolveItem s)) ∧
          (x.recordWords ≤ out.len →
            let o := solveQp x q record (solveLimits s 38000 q.deadline) (fClk * 88) true
            let lane := Entry.param it.entry % 8
            let r := done (if o.ended = .deadline then .deadlineBest else .ok) (if o.ended = .deadline then 0x0506 else 0) 0 0
              (digestGots j 3 0 (clean o.record))
            s.results (.qpSolve id) id r
              (countSolveItem (countSolve it lane q.warm o (writeGots out.key (clean o.record) (keepSlot o.slot s)))))))) ∧
    (∀ p slot out, s.runningItem id 0x0503 = some (it, j) → j.operandSpan it.entry 0 = some p → j.operandSpan it.entry 1 = some slot →
      j.operandSpan it.entry 3 = some out → ∃ (u : State) (r : Result), s.results (.qpSolve id) id r (countSolveItem u)) ∧
    (∀ b p list slot out x w, s.runningItem id 0x0502 = some (it, j) → j.itemChannel it = some b → s.pat.active = some p →
      j.operandSpan it.entry 0 = some list → j.operandSpan it.entry 1 = some slot → j.operandSpan it.entry 3 = some out → s.slot? slot.key = some x →
      x.kind = 0 → x.sig.toNat = b.field 77 → x.n = 128 → x.m = 1024 → s.slotHolder id slot.key = none →
      (∃ sw : List Word, sw.length = min slot.len (if x.factor.isSome then x.words else x.fixed) ∧ s.readsAll slot.key sw = true) →
      (∀ sp, j.bufferSpan (b.field 18) = some sp → ∃ cw : List Word, cw.length = min chStateWords sp.len ∧ s.readsAll sp.key cw = true) →
      let counted (u : State) : State := countSolveItem { u with se.easeItems := satAdd 4294967295 u.se.easeItems 1 }
      (∀ f, s.reads list.key w = true → keptCount w.toNat list.len = .error f → s.results (.ease id) id f.result (counted s)) ∧
      (s.reads list.key w = true → keptCount w.toNat list.len = .ok () → Word.get w 32 5 ≤ bits (Entry.param it.entry) 3 4 →
        let h : RecordHead := { tag := Word.get w 96 32, tB := stopBranchTime s j, cause := 8 }
        let gs := clean (trajectoryRecord h [] [])
        s.results (.ease id) id (done .ok 0 0 0 (digestGots j 3 0 gs)) (counted (writeGots out.key gs (countEase h s)))) ∧
      (∀ t r, runProg (easeRun it j b p list slot) s = (t, .ok r) → s.results (.ease id) id r (within {} s (counted t)))) ∧
    (∀ p slot rows w x w0 w1, j.operandSpan it.entry 0 = some p → j.operandSpan it.entry 1 = some slot → j.operandSpan it.entry 2 = some rows →
      rows.len = 2 → s.reads p.key w = true → solveParamCheck (solveParams w.toNat) 8 = .ok () → (solveParams w.toNat).resume = false →
      s.slot? slot.key = some x → x.kind = 1 → s.slotHolder id slot.key = none → s.readsAll rows.key [w0, w1] = true →
      (∃ sw : List Word, sw.length = min slot.len (if x.factor.isSome then x.words else x.fixed) ∧ s.readsAll slot.key sw = true) →
      s.runningItem id 0x0504 = some (it, j) →
      let row := fitRow x w0.toNat w1.toNat
      let bare : SolverSlot := { x with factor := none, resume := none }
      let zeroed : SolverSlot := { bare with nAcc := x.nAcc.map fun _ => 0, cAcc := x.cAcc.map fun _ => 0 }
      (bits (Entry.param it.entry) 3 2 = 0 →
        (row.ok = true → s.results (.lsqFitClearAccumulate id) id done (setSlotBuffer (accumulateRow zeroed row) s)) ∧
        (row.ok = false → s.results (.lsqFitClearAccumulate id) id (done .refused 0x0105) s)) ∧
      (bits (Entry.param it.entry) 3 2 = 1 →
        (row.ok = true → s.results (.lsqFitAccumulate id) id done (setSlotBuffer (accumulateRow bare row) s)) ∧
        (row.ok = false → s.results (.lsqFitAccumulate id) id (done .refused 0x0105) s))) ∧
    (∀ p slot out w x ws, s.runningItem id 0x0504 = some (it, j) → bits (Entry.param it.entry) 3 2 = 2 → j.operandSpan it.entry 0 = some p →
      j.operandSpan it.entry 1 = some slot → j.operandSpan it.entry 3 = some out → s.reads p.key w = true →
      solveParamCheck (solveParams w.toNat) 8 = .ok () → (solveParams w.toNat).resume = false → s.slot? slot.key = some x → x.kind = 1 →
      s.slotHolder id slot.key = none → ws.length = x.recordWords → x.recordWords ≤ out.len → s.readsAll out.key ws = true →
      (∃ sw : List Word, sw.length = min slot.len (if x.factor.isSome then x.words else x.fixed) ∧ s.readsAll slot.key sw = true) →
      let q := solveParams w.toNat
      let o := solveLsq x q ws (solveLimits s 38000 q.deadline) (fClk * 88)
      let r := done (if o.ended = .deadline then .deadlineBest else .ok) (if o.ended = .deadline then 0x0506 else 0) 0 0 (digestGots j 3 0 (clean o.record))
      s.results (.lsqFitSolve id) id r
        (countSolveItem (countSolve it (Entry.param it.entry % 8) 2 o (writeGots out.key (clean o.record) (keepSlot o.slot s)))))

/-- Tensor Engine, Top-k Selectors and Move Engines.  A segment of a job's network ends as its layers do: OK, POISONED or with a failed check (R293, R294,
R299), and its status word, its CLOCKS a free value (log 15), stands in OPERAND2; MATMUL of words that can be read writes its status record and the products of R300, its CLOCKS a free value (log 15), or ends DISAGREE with its panel
excluded where a check fails (R293; log 69); TOPK of a dense row, and TOPK_MERGE of records, write the record of R310 to R318; COPY, FILL and GATHER
move words and leave every other word, and a word that cannot be read halts the engine and poisons what it had left to write (R401, R402). -/
def Obligations.DataOperations : Prop :=
  ∀ (id : Nat) (s : State) (it : Item) (j : Job), s.awake = true →
    (s.runningItem id 0x0601 = some (it, j) →
      (j.network (bits (Entry.param it.entry) 0 6) = none → s.results (.networkSegment id) id (done .refused 0x010E) s) ∧
      (∀ n input work out, j.network (bits (Entry.param it.entry) 0 6) = some n → j.operandSpan it.entry 0 = some input →
        j.operandSpan it.entry 1 = some work → j.operandSpan it.entry 2 = some out →
        let layers := (List.range ((segmentRange it.entry).2 + 1 - (segmentRange it.entry).1)).map ((segmentRange it.entry).1 + ·)
        let panels := s.heldPanels it.id
        let v := (runLayers it.requester n panels input work layers ⟨{}, 0, .ran⟩ s).1
        let g := (runLayers it.requester n panels input work layers ⟨{}, 0, .ran⟩ s).2
        let asked := bits (Entry.param it.entry) 26 5
        let e := outputExtent n work (segmentRange it.entry).2 v
        let head := tensorStatus g.flags (panels.length < (if asked = 0 then n.tiling else asked)) g.ended g.macs ((Config.freeValue v.freeCount).toNat % 2 ^ 32)
        ∃ (u : State) (d : Nat), s.results (.networkSegment id) id (g.ended.result d) u ∧ u.te.items = satAdd 4294967295 s.te.items 1 ∧
          (g.ended = .ran → u.mem = (writeWord out.key head v).mem) ∧
          (g.ended ≠ .ran → u.mem = (writeWord out.key head (poisonWords (work.key + e.1) e.2 v)).mem))) ∧
    (∀ p x w y v, s.runningItem id 0x0602 = some (it, j) → j.operandSpan it.entry 0 = some p → j.operandSpan it.entry 1 = some x →
      j.operandSpan it.entry 2 = some w → j.operandSpan it.entry 3 = some y → s.reads p.key v = true →
      let q := matmulParam v.toNat
      let pt := s.matmulTiling j
      let l := q.layer (q.split pt)
      let checked := matmulCheck pt (Entry.vary it.entry || j.reproducible) q x w y
      (∀ f, checked = .error f → s.results (.matmul id) id f.result s) ∧
      (∀ xs ws, checked = .ok () → xs.length = l.inWords → ws.length = l.weightWords → s.readsAll x.key xs = true → s.readsAll w.key ws = true →
        s.memCtl.flip = none →
        let panels := s.heldPanels it.id
        let clocks := (Config.freeValue s.freeCount).toNat % 2 ^ 32
        let d : LayerData := { layer := l, x := xs, w := ws, post := [], upset := s.upset }
        let out := d.products {}
        let head := tensorStatus out.2 (panels.length < (if q.w == 0 then pt else q.w)) .ran l.macs clocks
        (d.failedCheck false = none → s.results (.matmul id) id (done .ok 0 0 0 (digestGots j 3 1 (clean out.1)))
          (countTensor out.2 l.macs clocks panels.length
            (writeGots (y.key + 1) (clean out.1) (writeWord y.key head { s with freeCount := s.freeCount + 1 })))) ∧
        (∀ f, d.failedCheck false = some f →
          ∃ u : State, s.results (.matmul id) id (done .disagree 0x0601 (at_ (panelOf panels f.tile) 8 8 ||| f.dpu) 0 (digestGots j 3 1 (poisonGots l.outWords))) u ∧
            u.te.excluded = s.te.excluded ||| BitVec.ofNat 16 (2 ^ panelOf panels f.tile)))) ∧
    (∀ p row out v, s.runningItem id 0x0701 = some (it, j) → j.operandSpan it.entry 0 = some p → j.operandSpan it.entry 1 = some row →
      j.operandSpan it.entry 2 = some out → s.reads p.key v = true →
      let q := topkParam v.toNat
      let counted : State := { s with tks.items := satAdd 4294967295 s.tks.items 1 }
      let checked := topkCheck q false row.len out.len ((j.operandSpan it.entry 3).map (·.len)) (overlapOk it.entry j)
      (∀ f, checked = .error f → s.results (.topk id) id f.result counted) ∧
      (∀ ws, checked = .ok () → q.form = 0 → ws.length = ceilDiv q.count 8 → s.readsAll row.key ws = true →
        let x := select q false [ws] (denseEntries q ws) (Config.sumRest v [ws]).toNat
        s.results (.topk id) id (done .ok 0 0 0 (m64 (digestGots j 2 0 (clean x.record)))) (countTopk x (writeGots out.key (clean x.record) counted)))) ∧
    (s.runningItem id 0x0702 = some (it, j) →
      (∃ (u : State) (r : Result), s.results (.topkMerge id) id r u ∧
        u.tks.items = satAdd 4294967295 s.tks.items 1 ∧ (r.status = .disagree → r.reason = 0x0703 ∧ u.tks.disagreeSeen = true)) ∧
      (∀ p row out v, j.operandSpan it.entry 0 = some p → j.operandSpan it.entry 1 = some row → j.operandSpan it.entry 2 = some out →
        s.reads p.key v = true →
        let q := topkParam v.toNat
        let counted : State := { s with tks.items := satAdd 4294967295 s.tks.items 1 }
        ∀ (inputs : List (List Word)) es,
          topkCheck q true row.len out.len ((j.operandSpan it.entry 3).map (·.len)) (overlapOk it.entry j) = .ok () → q.form ≠ 2 →
          inputs.length = q.count →
          (∀ n, n < q.count → (nth inputs n []).length = q.stride ∧ s.readsAll (row.key + n * q.stride) (nth inputs n []) = true) →
          inputEntries q true inputs = .ok es →
          let x := select q true inputs es (Config.sumRest v inputs).toNat
          let d := m64 (digestGots j 2 0 (clean x.record))
          s.results (.topkMerge id) id
            (match x.merged.differ.head? with | some e => done .disagree 0x0703 e.input 0 d | none => done .ok 0 0 0 d)
            (countTopk x (writeGots out.key (clean x.record) counted)))) ∧
    (∀ src dst, s.runningItem id 0x0A01 = some (it, j) → j.operandSpan it.entry 0 = some src → j.operandSpan it.entry 1 = some dst →
      dst.key + src.len ≤ src.key ∨ src.key + src.len ≤ dst.key →
      (∀ ws, ws.length = src.len → s.readsAll src.key ws = true →
        s.results (.copy id) id (done .ok 0 0 0 (digestGots j 1 0 (clean ws))) (writeGots dst.key (clean ws) s)) ∧
      (∀ ws st, ws.length < src.len → s.readsAll src.key ws = true → s.memCtl.merge = [] → s.mem.get (src.key + ws.length) = some st →
        decodeStored (s.rowCol (src.key + ws.length)) st = .poison →
        let left := src.len - ws.length
        let n := it.moveEngine
        ∃ u : State, s.results (.copy id) id (done .poisoned 0x0A07 0 0 (digestGots j 1 0 (clean ws ++ poisonGots left))) u ∧
          u.me.halted = s.me.halted ||| BitVec.ofNat 16 (2 ^ n) ∧ u.me.haltAddr = s.me.haltAddr.set n (keyAddr (src.key + ws.length)) ∧
          u.mem = (poisonWords (dst.key + ws.length) left (writeGots dst.key (clean ws) s)).mem)) ∧
    (∀ pat dst w, s.runningItem id 0x0A02 = some (it, j) → j.operandSpan it.entry 0 = some pat → j.operandSpan it.entry 1 = some dst →
      s.reads pat.key w = true →
      let gs := clean (List.replicate dst.len w)
      s.results (.fill id) id (done .ok 0 0 0 (digestGots j 1 0 gs)) (writeGots dst.key gs s)) ∧
    (∀ ix src dst is, s.runningItem id 0x0A03 = some (it, j) → j.operandSpan it.entry 0 = some ix → j.operandSpan it.entry 1 = some src →
      j.operandSpan it.entry 2 = some dst → is.length = ceilDiv dst.len 8 → s.readsAll ix.key is = true →
      let index (i : Nat) := lane32 (nth is (i / 8) 0) (i % 8)
      ((∃ i, i < dst.len ∧ src.len ≤ index i) → s.results (.gather id) id (done .refused 0x0105) s) ∧
      (∀ vs, (∀ i, i < dst.len → index i < src.len) → vs.length = dst.len → (∀ i, i < dst.len → s.reads (src.key + index i) (nth vs i 0) = true) →
        (∀ i k, i < dst.len → k < dst.len → src.key + index i ≠ dst.key + k) →
        s.results (.gather id) id (done .ok 0 0 0 (digestGots j 2 0 (clean vs))) (writeGots dst.key (clean vs) s)))

/-- Field Ports and Peer Links: SETPOINT_SEND queues its words as an AUX frame for its node (R454); DELTA_BROADCAST is refused with 0x0114 where a mask of its
operand meets the authority mask of its link (R84, R468), ends POISONED before it sends anything where a word that it needs cannot be read (R399), and else sends on
each link of its mask the entries of the epoch that pass, or the full state, and reports the links that are down; CAND_SEND sends its list on each link (R468);
CAND_GATHER writes its own list as input 0 of its inbox, sends it on each link of its mask and then waits for each, and with no link completes at once
(R469).  When the masks are judged, and the code, are deduced (log 45). -/
def Obligations.PortOperations : Prop :=
  ∀ (id : Nat) (s : State) (it : Item) (j : Job), s.awake = true →
    (s.runningItem id 0x0B01 = some (it, j) →
      (j.operandSpan it.entry 0 = none → s.results (.setpointSend id) id (done .refused 0x0105) s) ∧
      (∀ sp ws, j.operandSpan it.entry 0 = some sp → ws.length = sp.len → s.readsAll sp.key ws = true →
        s.results (.setpointSend id) id done
          (setFp (Entry.param it.entry % 4) (fun p => { p with queue := p.queue ++ [.aux (bits (Entry.param it.entry) 2 3) (wordsBytes ws)] }) s))) ∧
    (s.runningItem id 0x0B03 = some (it, j) →
      let links := collectiveLinks it
      (bits (Entry.param it.entry) 0 4 = 0 →
        (s.occCtx = none ∨ s.occ.committed = none → s.results (.deltaBroadcast id) id done s) ∧
        (∀ sp c e, j.operandSpan it.entry 0 = some sp → s.occCtx = some c → s.occ.committed = some e →
          (∃ (u : State) (r : Result), s.results (.deltaBroadcast id) id r u ∧
            (r.status = .ok ∨ r.status = .poisoned ∨ r.status = .refused ∧ r.reason = 0x0114)) ∧
          let marked (t : State) : State := catchUp c { t with occ.exportAt := some sp.key, occ.exportWords := sp.len }
          let program : Run (List Nat × List (Nat × (List Byte ⊕ List Nat))) := do
            let es ← if e.rebuild then pure [] else logEntries it.requester c e (List.range (ceilDiv e.fill 8))
            let xs ← links.mapM fun n => do
              let x ← broadcastOf it.requester c e (sp.key + 32768 * n) es
              pure (n, x)
            pure (es, xs)
          (∀ n rest (ws as_ : List Word), links = n :: rest → ws.length = 32768 → as_.length = 32768 → s.readsAll (sp.key + 32768 * n) ws = true →
            s.readsAll (c.authAt n 0) as_ = true → (∃ i, i < 32768 ∧ nth ws i 0 &&& nth as_ i 0 ≠ 0) →
            s.results (.deltaBroadcast id) id (done .refused 0x0114) s) ∧
          (∀ t, runProg (links.forM fun n => masksApart it.requester (sp.key + 32768 * n) (c.authAt n 0) (List.range 32768)) s = (t, .ok ()) →
            (∀ v es xs, runProg program (marked t) = (v, .ok (es, xs)) →
              let sent := xs.foldl (fun v x => sendBroadcast e x.1 x.2 v) v
              s.results (.deltaBroadcast id) id (done .ok 0 (v.linksDown links)) (within { occ := true, pl := true } s sent) ∧ xs.map (·.1) = links ∧
              (e.rebuild = false → ∀ n x, (n, x) ∈ xs → ∃ rs : List Nat, x = .inr rs ∧ rs.Sublist es)) ∧
            (∀ v f, runProg program (marked t) = (v, .error f) → f.status = .poisoned →
              s.results (.deltaBroadcast id) id f.result (within { occ := true, pl := true } s v) ∧ v.pl = s.pl)))) ∧
      (bits (Entry.param it.entry) 0 4 = 1 →
        (j.operandSpan it.entry 0 = none → s.results (.candSend id) id done s) ∧
        (∀ sp ws, j.operandSpan it.entry 0 = some sp → ws.length = min (j.listLen it) sp.len → s.readsAll sp.key ws = true →
          s.results (.candSend id) id done (links.foldl (fun u n => sendMessage n 5 0 it.tag.toNat (wordsBytes ws) u) s))) ∧
      (bits (Entry.param it.entry) 0 4 = 2 →
        ((∃ g ∈ s.pl.gathers, g.item = it.id) → s.staysRunning (.candGather id) s) ∧
        (∀ sp b ws, (∀ g ∈ s.pl.gathers, g.item ≠ it.id) → j.operandSpan it.entry 0 = some sp → j.itemChannel it = some b →
          ws.length = min (j.listLen it) sp.len → s.readsAll sp.key ws = true →
          (links = [] → (∀ n, (s.peer n).held = []) → ∃ (u : State) (d : Nat), s.results (.candGather id) id (done .ok 0 0 0 d) u ∧ u.pl.gathers = s.pl.gathers ∧
            u.pl.links = s.pl.links ∧ (b.field 0, it.tag) ∈ u.pl.ranGathers) ∧
          (links ≠ [] → (∀ n ∈ links, (s.peer n).held = []) →
            let inbox := ws ++ List.replicate (j.listLen it - ws.length) 0
            ∃ u : State, s.staysRunning (.candGather id) u ∧
              u.pl.links = (links.foldl (fun v n => sendMessage n 5 0 it.tag.toNat (wordsBytes ws) v) s).pl.links ∧
              (∀ out, j.operandSpan it.entry 1 = some out → u.mem = (writeGots out.key (clean inbox) s).mem) ∧
              ∃ g ∈ u.pl.gathers, g.item = it.id ∧ g.tag = it.tag ∧ g.channel = b.field 0 ∧
                g.links = links ∧ g.missing = links ∧ g.limit = it.started + 1000 * s.devField 5 1 40))))

/-! ## Work that events and time bring about -/

/-- The Tracer's background work and the occupancy sources.  An add changes one slot of a record as R180 says.  A rotation count makes its slot valid (R185),
a recount writes the count of R184 or is dropped, none of them starts while a slice of the self-test runs on the Tracer (R371), the sweep queues
what is pending, a full count ends in every slot that was not rotated meanwhile (R186); the
intake reaches its slice (R166), and a source that has been silent for its timeout is forced and reported by alarm 0x0308 (R170, R172); what stays
overdue is reported by 0x0309 (R198).  That a slice of any group keeps every count waiting is the model's choice (log 76). -/
def Obligations.TracerAndSources : Prop :=
  (∀ r k (up : Bool), k < 16 →
    let o := addRecord r k up
    (recSat r k = true → recCount o.out k = recCount r k ∧ recSat o.out k = true ∧ (up = false → recPend o.out k = true) ∧
      (o.queue = true ↔ up = false ∧ recPend r k = false)) ∧
    (recSat r k = false → up = true → recCount r k < 63 →
      recCount o.out k = recCount r k + 1 ∧ (recSat o.out k = true ↔ recCount r k = 62) ∧ (o.saturated = true ↔ recCount r k = 62)) ∧
    (recSat r k = false → up = false → recCount r k = 0 →
      recCount o.out k = 63 ∧ recSat o.out k = true ∧ recPend o.out k = true ∧ o.queue = true ∧ o.underflow = true) ∧
    (recSat r k = false → up = false → recCount r k ≠ 0 → recCount o.out k = recCount r k - 1 ∧ recSat o.out k = false) ∧
    (∀ m, m < 16 → m ≠ k → recCount o.out m = recCount r m ∧ recSat o.out m = recSat r m ∧ recPend o.out m = recPend r m)) ∧
  (∀ (s : State) (port : Fin 4) (link : Fin 7), s.awake = true → s.occCtx = none →
    ∀ i ∈ [Instr.rotationCount, .recount, .recountOverflowSweep, .fullCount, .sliceBoundary, .obsSourceTimeout port, .peerSourceTimeout link],
      s.gives i s) ∧
  (∀ (s : State) c p, s.awake = true → s.occCtx = some c → s.pat.active = some p →
    (s.trc.fullCount.isSome = true ∨ s.trc.fault = true ∨ s.tracerTested = true →
      s.gives .recount s ∧ s.gives .rotationCount s ∧ (s.trc.fault = true ∨ s.tracerTested = true → s.gives .fullCount s)) ∧
    (s.trc.fullCount = none → s.gives .fullCount s) ∧
    (∀ slot rest, s.trc.fullCount = none → s.trc.fault = false → s.tracerTested = false → s.trc.rotations = slot :: rest →
      ∃ u : State, s.gives .rotationCount u ∧
        (u.trc.fault = false → u.trc.rotations = rest ∧ u.trc.valid = s.trc.valid ||| (1#16 <<< slot)) ∧
        (u.trc.fault = true → u.trc.rotations = s.trc.rotations ∧ u.trc.valid = 0)) ∧
    (∀ x rest, s.trc.fullCount = none → s.trc.fault = false → s.tracerTested = false → s.trc.recounts = x :: rest → p.edges ≤ x.edge →
      s.gives .recount { s with trc.recounts := rest }) ∧
    (∀ x rest w, s.trc.fullCount = none → s.trc.fault = false → s.tracerTested = false → s.trc.recounts = x :: rest → x.edge < p.edges →
      s.reads (edgeKey x.edge) w = true →
      let r := Word.get w (128 * edgeHalf x.edge) 128
      let t : State := { s with trc.recounts := rest }
      (recPend r x.slot = false → s.gives .recount t) ∧
      (∀ vs a n, recPend r x.slot = true → forwardList p x.edge t = (t, some vs) → countSlot c x.slot vs t = (a, n) →
        let v := modifyRecord x.edge (countedSlot · x.slot n) a
        s.gives .recount { v with trc.recountsDone := satAdd 4294967295 v.trc.recountsDone 1 })) ∧
    (s.trc.overflow = none ∨ s.trc.recounts ≠ [] → s.gives .recountOverflowSweep s) ∧
    (∀ since (ws : Nat → Word), s.trc.overflow = some since → s.trc.recounts = [] → (∀ e, e < p.edges → s.reads (edgeKey e) (ws e) = true) →
      let pend : List Recount := (List.range p.edges).flatMap fun e =>
        ((List.range 16).filter fun k => recPend (Word.get (ws e) (128 * edgeHalf e) 128) k).map fun k => ⟨e, k, since⟩
      pend.length ≤ 4096 → s.gives .recountOverflowSweep { s with trc.overflow := none, trc.recounts := pend }) ∧
    (∀ g, s.trc.fullCount = some g → s.trc.fault = false → s.tracerTested = false →
      ∃ u : State, s.gives .fullCount u ∧ u.trc.fullCount = none ∧ u.trc.rotations = s.trc.rotations ∧
        (u.trc.fault = false → ∀ k, k < 16 → (u.trc.valid.getLsbD k = true ↔ s.trc.valid.getLsbD k = true ∨ k ∉ s.trc.rotations)) ∧
        (u.trc.fault = true → u.trc.valid = 0)) ∧
    (∃ u : State, s.gives .recountOverdue u ∧
      (u.trc.overdue = true ↔
        (∃ k ∈ s.trc.rotations, nth s.trc.rotatedAt k 0 + 2 * (1000000 * c.period) < s.now) ∨
        (∃ x ∈ s.trc.recounts, x.since + 50000000 < s.now) ∨ (∃ g, s.trc.overflow = some g ∧ g + 50000000 < s.now) ∨
        (∃ g, s.trc.fullCount = some g ∧ g + (p.fwdTotal * 24 / 1000 + 2000000) < s.now)) ∧
      (u.trc.overdue = true → u.alarmSet 0x0309 = true) ∧ (u.trc.overdue = false → u = { s with trc.overdue := false }))) ∧
  (∀ (s : State) c, s.awake = true → s.occCtx = some c →
    (∀ k, c.slice s.now = s.occ.tc + k → ∃ u : State, s.gives .sliceBoundary u ∧ u.occ.tc = s.occ.tc + k ∧
      u.occ.boundaries = s.occ.boundaries + k ∧ (k = 0 → u = s)) ∧
    (∀ port : Fin 4,
      let due := s.now % 100000 = 0 ∧ c.hasPort port = true ∧ s.occ.obsTimeout.getLsbD port = false ∧
        nth s.occ.lastObs port 0 + 1000000 * c.block.field 9 ≤ s.now
      (¬ due → s.gives (.obsSourceTimeout port) s) ∧
      (due → ∃ u : State, s.gives (.obsSourceTimeout port) u ∧ u.occ.obsTimeout = s.occ.obsTimeout ||| (1#4 <<< port.val) ∧
        u.occ.lastObs = s.occ.lastObs ∧ u.alarmSet 0x0308 = true)) ∧
    (∀ link : Fin 7,
      let due := s.now % 100000 = 0 ∧ c.hasPeer link = true ∧ s.occ.peerTimeout.getLsbD link = false ∧
        nth s.occ.lastPeer link 0 + 1000000 * c.block.field 19 ≤ s.now
      (¬ due → s.gives (.peerSourceTimeout link) s) ∧
      (due → ∃ u : State, s.gives (.peerSourceTimeout link) u ∧ u.occ.peerTimeout = s.occ.peerTimeout ||| (1#7 <<< link.val) ∧
        u.occ.peerForced = s.occ.peerForced ||| (1#7 <<< link.val) ∧ u.alarmSet 0x0308 = true)))

/-- Frame Intake, packet by packet: a lost header, a stranger, a wrong length and a wrong checksum discard the frame in progress, embedded data among them
(R326); a Frame Start takes
the first FREE buffer, drops the frame without one or without a consumer, or takes the oldest FULL one (R325, R328, R329); a line is stored and counted
(R327); Frame End hands a whole frame to the monitor, which rejects it as repeated or frozen or makes it FULL (R331 to R333); FRAME_MAX and the limit of a
waiting FRAME_TAKE expire (R326, R334). -/
def Obligations.FrameIntake : Prop :=
  (∀ (n : Fin 4) (s : State) vc num dt len bytes crc ecc, s.awake = true → s.camera n = none →
    s.gives (.frameStart n vc num ecc) s ∧ s.gives (.csiLongPacket n vc dt len bytes crc ecc) s ∧
    s.gives (.frameEnd n vc num ecc) s ∧ s.gives (.csiShortPacket n vc dt ecc) s ∧ s.gives (.frameMaxTimeout n) s ∧
    s.gives (.ffmDecision n) s) ∧
  (∀ (n : Fin 4) (s : State) b vc num dt len bytes crc, s.awake = true → s.camera n = some b →
    let p := s.fiPort n
    (s.gives (.frameStart n vc num .lost) (failFrame n 0x0804 s) ∧
      s.gives (.csiLongPacket n vc dt len bytes crc .lost) (failFrame n 0x0804 s) ∧
      s.gives (.frameEnd n vc num .lost) (failFrame n 0x0804 s) ∧ s.gives (.csiShortPacket n vc dt .lost) (failFrame n 0x0804 s)) ∧
    (vc.val ≠ b.field 1 →
      s.gives (.frameStart n vc num .ok) (stranger n s) ∧ s.gives (.csiLongPacket n vc dt len bytes crc .ok) (stranger n s) ∧
      s.gives (.frameEnd n vc num .ok) (stranger n s) ∧ s.gives (.csiShortPacket n vc dt .ok) (stranger n s)) ∧
    (vc.val = b.field 1 →
      (p.now = none → s.consumer b = none → s.gives (.frameStart n vc num .ok) (setPort n (fun x =>
        { x with now := some { buffer := none, start := s.now, number := num }, dropped := satAdd 65535 x.dropped 1 }) s)) ∧
      (∀ slot j i, p.now = none → s.consumer b = some (slot, j) → i < b.field 6 → i < 4 → ¬ (j.goldenPort n = true ∧ i = 3) →
        (p.buf i).state = .free → (∀ k, k < i → (p.buf k).state ≠ .free) →
        let buf : FrameBuf :=
          { state := .filling, mFs := s.line.m, capture := s.gcnt, number := num,
            sheet := BitVec.ofNat 32 (s.line.m.toNat / 65536) - BitVec.ofNat 32 (j.sheetLag (b.field 12)),
            noSheet := s.line.state == .lost, skip := false, order := p.nextOrder }
        s.gives (.frameStart n vc num .ok) (setPort n (fun x =>
          { x with bufs := upd x.bufs i fun _ => buf, nextOrder := x.nextOrder + 1,
                   now := some { buffer := some i, start := s.now, number := num } }) s)) ∧
      (∀ slot j, p.now = none → s.consumer b = some (slot, j) → (∀ k, k < b.field 6 → (p.buf k).state ≠ .free) → b.field 7 = 0 →
        s.gives (.frameStart n vc num .ok) (setPort n (fun x =>
          { x with now := some { buffer := none, start := s.now, number := num }, dropped := satAdd 65535 x.dropped 1 }) s)) ∧
      (∀ slot j i, p.now = none → s.consumer b = some (slot, j) → s.fi.ports.length = 4 → p.bufs.length = 4 → b.field 7 = 1 → b.field 6 ≤ 4 →
        j.goldenPort n = false → (∀ k, k < b.field 6 → (p.buf k).state ≠ .free) → i < b.field 6 → (p.buf i).state = .full →
        (∀ k, k < b.field 6 → k ≠ i → (p.buf k).state = .full → (p.buf i).order < (p.buf k).order) →
        ∃ u : State, s.gives (.frameStart n vc num .ok) u ∧ (u.fiPort n).dropped = satAdd 65535 p.dropped 1 ∧
          ((u.fiPort n).buf i).state = .filling ∧ ((u.fiPort n).buf i).number = num ∧ ∀ k, k < 4 → k ≠ i → (u.fiPort n).buf k = p.buf k) ∧
      (dt.toNat = 0x12 → s.gives (.csiLongPacket n vc dt len bytes crc .ok) (if crc then s else failFrame n 0x0804 s)) ∧
      (dt.toNat ≠ 0x12 → dt.toNat ≠ pixelType b → s.gives (.csiLongPacket n vc dt len bytes crc .ok) (stranger n s)) ∧
      (dt.toNat ≠ 0x12 → dt.toNat = pixelType b → len ≠ lineBytes b → s.gives (.csiLongPacket n vc dt len bytes crc .ok) (failFrame n 0x0805 s)) ∧
      (dt.toNat ≠ 0x12 → dt.toNat = pixelType b → len = lineBytes b → crc = false →
        s.gives (.csiLongPacket n vc dt len bytes crc .ok) (failFrame n 0x0804 s)) ∧
      (dt.toNat ≠ 0x12 → dt.toNat = pixelType b → len = lineBytes b → crc = true →
        (p.now = none → s.gives (.csiLongPacket n vc dt len bytes crc .ok) s) ∧
        (∀ f, p.now = some f → f.buffer = none → s.gives (.csiLongPacket n vc dt len bytes crc .ok)
          (setPort n (fun x => { x with now := some { f with lines := f.lines + 1 } }) s))) ∧
      (∀ f i slot j sp, dt.toNat ≠ 0x12 → dt.toNat = pixelType b → len = lineBytes b → crc = true → s.fi.ports.length = 4 → p.now = some f →
        f.buffer = some i → s.consumer b = some (slot, j) → j.bufferSpan (b.field 13) = some sp → f.lines < b.field 5 →
        bytes.length = lineBytes b → lineBytes b ≤ 32 * lineWords b →
        ∃ (u : State) (g : FrameNow), s.gives (.csiLongPacket n vc dt len bytes crc .ok) u ∧ (u.fiPort n).now = some g ∧
          g.lines = f.lines + 1 ∧ g.buffer = some i ∧ g.start = f.start ∧ (u.fiPort n).bufs = p.bufs ∧
          u.mem = (writeWords (sp.key + i * frameWords b + f.lines * lineWords b)
            (bytesWords (lineWords b) (bytes ++ List.replicate (32 * lineWords b - bytes.length) 0)) s).mem) ∧
      (p.now = none → s.gives (.frameEnd n vc num .ok) (failFrame n 0x0805 s)) ∧
      (∀ f, p.now = some f → f.buffer = none →
        (f.discarded = true ∨ f.lines = b.field 5 → s.gives (.frameEnd n vc num .ok) (setPort n (fun x => { x with now := none }) s)) ∧
        (f.discarded = false → f.lines ≠ b.field 5 →
          s.gives (.frameEnd n vc num .ok) (setPort n (fun x => { x with now := none }) (failFrame n 0x0805 s)))) ∧
      (∀ f, s.fi.ports.length = 4 → p.now = some f → ∃ (u : State) (g : FrameNow), s.gives (.frameStart n vc num .ok) u ∧
        (u.fiPort n).now = some g ∧ g.start = s.now ∧ g.number = num ∧ g.lines = 0 ∧ (u.fiPort n).sizeErrors = satAdd 255 p.sizeErrors 1) ∧
      (∀ f i, p.now = some f → f.buffer = some i →
        (f.discarded = false → f.lines ≠ b.field 5 → s.gives (.frameEnd n vc num .ok) (setPort n (fun x => { x with now := none }) (failFrame n 0x0805 s))) ∧
        (f.lines = b.field 5 → (s.consumer b).isSome = true → s.gives (.frameEnd n vc num .ok)
          (setPort n (fun x => { x with now := none, ended := x.ended ++ [⟨i, f.bands⟩] }) s))) ∧
      (dt.toNat = 2 ∨ dt.toNat = 3 → s.gives (.csiShortPacket n vc dt .ok) s) ∧
      (dt.toNat ≠ 2 → dt.toNat ≠ 3 → s.gives (.csiShortPacket n vc dt .ok) (stranger n s))) ∧
    (p.now = none → s.gives (.frameMaxTimeout n) s) ∧
    (∀ f, s.fi.ports.length = 4 → p.bufs.length = 4 → p.now = some f →
      (s.now < f.start + 1000000 * b.field 10 ∨ f.expired = true → s.gives (.frameMaxTimeout n) s) ∧
      (f.start + 1000000 * b.field 10 ≤ s.now → f.expired = false → ∃ u : State, s.gives (.frameMaxTimeout n) u ∧
        (∀ i, f.buffer = some i → i < 4 → ((u.fiPort n).buf i).state = .free) ∧
        (u.fiPort n).now = some { f with buffer := none, discarded := true, expired := true } ∧
        (u.fiPort n).maxExpiries = satAdd 255 p.maxExpiries 1 ∧ u.fi.lastReject = 0x0803 ∧ u.alarmSet 0x0803 = true)) ∧
    (p.ended = [] → s.gives (.ffmDecision n) s) ∧
    (∀ e rest, s.fi.ports.length = 4 → p.bufs.length = 4 → p.ended = e :: rest → e.buffer < 4 →
      let x := p.buf e.buffer
      let repeated := b.field 8 = 1 ∧ (x.number = 0 ∨ p.refNumber = some x.number)
      let rejected (code : Nat) : Prop :=
        ∃ u : State, s.gives (.ffmDecision n) u ∧ (u.fiPort n).ended = rest ∧ ((u.fiPort n).buf e.buffer).state = .free ∧
          u.fi.lastReject = BitVec.ofNat 16 code ∧ (u.fiPort n).refNumber = p.refNumber ∧ (u.fiPort n).refBands = p.refBands
      (repeated → rejected 0x0802) ∧
      (¬ repeated → b.field 9 ≤ frozenBands e.bands p.refBands → rejected 0x0801) ∧
      (¬ repeated → frozenBands e.bands p.refBands < b.field 9 → p.take = none →
        ∃ u : State, s.gives (.ffmDecision n) u ∧ (u.fiPort n).ended = rest ∧ ((u.fiPort n).buf e.buffer).state = .full ∧
          (u.fiPort n).refNumber = some x.number ∧ (u.fiPort n).refBands = e.bands ∧ (u.fiPort n).accepted = satAdd 65535 p.accepted 1))) ∧
  (∀ (id : Nat) (s : State), s.awake = true →
    ((∀ n : Fin 4, ∀ x, (s.fiPort n).take = some x → x.1 ≠ id ∨ s.now < x.2) → s.gives (.frameTakeTimeout id) s) ∧
    (∀ (n : Fin 4) due it j, s.fi.ports.length = 4 → (s.fiPort n).take = some (id, due) → due ≤ s.now →
      (∀ k : Fin 4, k ≠ n → ∀ x, (s.fiPort k).take = some x → x.1 ≠ id) → s.runningItem id 0x0801 = some (it, j) →
      ∃ u : State, s.results (.frameTakeTimeout id) id (done .timeout 0x0803) u ∧ (u.fiPort n).take = none))

/-- The Field Ports: a port without an enabled block does nothing; an opportunity sends the TIME frame (its G_BASE 6,400 ns after the start of the frame,
log 40), a SETPOINT that is not late to the node of its channel, an AUX frame, or a fragment that fits; with several queued, SETPOINTs in ascending CHANNEL
come before AUX frames, up to 1 + MAX_BURST frames while PLCA is active and one otherwise, each 9.6 µs after the end of the one before, so that a SETPOINT
whose G_BASE has passed by then is LATE (R451).  How many collisions a frame meets, and how long it backs off, are free values: after 16 it is discarded and
counted as EXCESS, and collisions count while PLCA is active (R445, log 55).  TIME_PERIOD, without effect where the port has no TIME_GROUP (log 66), late
SETPOINTs, the checks of a received frame in their order (R455), the sequence faults of R456, the timeout of R457 and PLCA (R445). -/
def Obligations.FieldPorts : Prop :=
  (∀ (n : Fin 4) (m : Fin 8) (s : State) f c, s.awake = true → s.fieldBlock n = none →
    ∀ i ∈ [Instr.fpTransmitOpportunity n, .timeFrameDue n, .setpointLateDiscard n, .fpFrameReceive n f c, .fpFeedbackTimeout n m, .plcaCoordinatorLost n,
      .plcaResume n], s.gives i s) ∧
  (∀ (n : Fin 4) (s : State) b, s.awake = true → s.fieldBlock n = some b → s.fp.length = 4 → (s.port n).nodes.length = 8 →
    let p := s.port n
    let sends (u : State) (l : List (List Byte)) : Prop := s.gives (.fpTransmitOpportunity n) u ∧ (u.port n).wire = l ∧ (u.port n).timeDue = false
    let onWire (excess : Bool) (bytes : List Byte) : List (List Byte) := if excess then [] else [bytes]
    let counts (u : State) : Prop := (u.port n).sent = satAdd 65535 p.sent (b2n !s.excess) ∧ (u.port n).excess = satAdd 255 p.excess (b2n s.excess) ∧
      (u.port n).collisions = if p.plcaOk then satAdd 65535 p.collisions s.met else p.collisions
    let next : State := { s with freeCount := s.freeCount + 1 }
    let setpoint (r : Release) (m : Nat) : TuoreFrame :=
      let w := (nth r.words 0 0).toNat
      { dest := (nodeDef b m).mac, kind := 1, seq := s.nodeSeq n m, sub := r.channel, safe := w.testBit 6, validPos := bits w 128 48,
        gBase := r.gBase, payload := r.payload }
    (p.timeDue = true → p.queue = [] →
      let f : TuoreFrame :=
        { dest := b.field 6, kind := 4, seq := p.timeSeq, validPos := s.line.m.toNat, gBase := s.now + s.backoff + 6400,
          payload := toBytes s.line.v.toNat 6 ++ toBytes (lineCode s.line.state) 1 ++ toBytes 0 7 }
      ∃ u : State, sends u (onWire s.excess (f.bytes b)) ∧ (u.port n).timeSeq = p.timeSeq + 1 ∧ counts u) ∧
    (∀ r m, p.timeDue = false → p.queue = [.setpoint r] → s.now ≤ r.gBase →
      nodeWith b (fun d => d.role == 1 && d.channel == r.channel) = some m →
      ∃ u : State, sends u (onWire s.excess ((setpoint r m).bytes b)) ∧ (u.port n).queue = [] ∧
        (s.excess = false → (nth (u.port n).nodes m {}).lastSent = some r) ∧
        (s.excess = true → (nth (u.port n).nodes m {}).lastSent = (nth p.nodes m {}).lastSent) ∧
        (nth (u.port n).nodes m {}).txSeq = s.nodeSeq n m + 1 ∧ counts u) ∧
    (∀ a bytes r r' m m', p.timeDue = false → p.queue = [.aux a bytes, .setpoint r', .setpoint r] → r.channel < r'.channel → s.now ≤ r.gBase →
      s.now ≤ r'.gBase → nodeWith b (fun d => d.role == 1 && d.channel == r.channel) = some m →
      nodeWith b (fun d => d.role == 1 && d.channel == r'.channel) = some m' →
      let first := (setpoint r m).bytes b
      let start := s.now + s.backoff + wireTime first + 9600
      let f : TuoreFrame := { dest := (nodeDef b a).mac, kind := 2, seq := s.nodeSeq n a + (if a = m then 1 else 0), payload := bytes }
      (p.plcaOk = false ∨ b.field 3 = 0 → ∃ u : State, sends u (onWire s.excess first) ∧ (u.port n).queue = [.aux a bytes, .setpoint r'] ∧ counts u) ∧
      (p.plcaOk = true → b.field 3 = 1 → start ≤ r'.gBase →
        ∃ u : State, sends u (onWire s.excess first ++ onWire next.excess ((setpoint r' m').bytes b)) ∧ (u.port n).queue = [.aux a bytes] ∧
          (u.port n).late = satAdd 255 p.late 0) ∧
      (p.plcaOk = true → b.field 3 = 1 → r'.gBase < start →
        ∃ u : State, sends u (onWire s.excess first ++ onWire next.excess (f.bytes b)) ∧ (u.port n).queue = [] ∧
          (u.port n).late = satAdd 255 p.late 1)) ∧
    (∀ r, p.timeDue = false → p.queue = [.setpoint r] → r.gBase < s.now →
      ∃ u : State, sends u [] ∧ (u.port n).queue = [] ∧ (u.port n).late = satAdd 255 p.late 1) ∧
    (∀ m bytes, p.timeDue = false → p.queue = [.aux m bytes] →
      let f : TuoreFrame := { dest := (nodeDef b m).mac, kind := 2, seq := s.nodeSeq n m, payload := bytes }
      ∃ u : State, sends u (onWire s.excess (f.bytes b)) ∧ (u.port n).queue = [] ∧ counts u) ∧
    (∀ m ws k, p.timeDue = false → p.queue = [.correction ws k] → nodeWith b (fun d => d.role == 2) = some m →
      let bytes := (fragmentFrame b (s.nodeSeq n m) m ws k).bytes b
      (s.fragmentFits s.now (wireTime bytes) = true → ∃ (u : State) (l : List (List Byte)),
        sends u (onWire s.excess bytes ++ l)) ∧
      (s.fragmentFits s.now (wireTime bytes) = false → ∃ u : State, sends u [] ∧ (u.port n).queue = p.queue)) ∧
    (p.timeDue = false → p.queue = [] → ∃ u : State, sends u [] ∧ (u.port n).sent = p.sent) ∧
    (b.field 7 ≠ 0 → b.defaulted 6 = false → p.lastTime + 1000000 * b.field 7 ≤ s.now →
      s.gives (.timeFrameDue n) (setFp n (fun x => { x with timeDue := true, lastTime := s.now }) s)) ∧
    (b.field 7 = 0 ∨ b.defaulted 6 = true ∨ s.now < p.lastTime + 1000000 * b.field 7 → s.gives (.timeFrameDue n) s) ∧
    (∃ u : State, s.gives (.setpointLateDiscard n) u ∧ ∀ f, f ∈ (u.port n).queue ↔ f ∈ p.queue ∧ ∀ r, f = .setpoint r → s.now < r.gBase) ∧
    (∀ f ok, let receives (u : State) : Prop := s.gives (.fpFrameReceive n f ok) u
      let source := nodeWith b fun d => (d.role == 1 || d.role == 3) && d.mac == frameField f 6 6
      (ok = false → receives (setFp n (fun x => { x with fcsErrors := satAdd 255 x.fcsErrors 1 }) s)) ∧
      (ok = true → ofBytes ((f.drop 12).take 2).reverse ≠ b.field 5 → receives (setFp n (fun x => { x with foreign := satAdd 65535 x.foreign 1 }) s)) ∧
      (ok = true → ofBytes ((f.drop 12).take 2).reverse = b.field 5 →
        (source = none → receives (setFp n (fun x => { x with unknownSource := satAdd 255 x.unknownSource 1 }) s)) ∧
        (∀ m, source = some m →
          let d := nodeDef b m
          let joints := channelJointsOf d.channel s
          let gap := match (nth p.nodes m {}).lastSeq with | some q => (rxSeq f - q).toNat | none => 1
          (rxHeader f = false → receives (dropRange n m 4 0 s)) ∧
          (rxHeader f = true → rxPayloadCheck f = false → receives (setFp n (fun x => { x with payloadCrc := satAdd 255 x.payloadCrc 1 }) s)) ∧
          (rxHeader f = true → rxPayloadCheck f = true → rxKind f d.role (joints.map (·.length)) = false →
            receives (dropRange n m 6 (rxSeq f).toNat s)) ∧
          (rxHeader f = true → rxPayloadCheck f = true → rxKind f d.role (joints.map (·.length)) = true →
            (gap = 0 ∨ 32768 ≤ gap → receives (sequenceEvent n m 1 gap s)) ∧
            (1 ≤ gap → gap < 32768 → rxValues f d.role joints = false → receives (dropRange n m 8 (rxSeq f).toNat s)) ∧
            (1 ≤ gap → gap < 32768 → rxValues f d.role joints = true →
              ∃ u : State, receives u ∧ (u.port n).accepted = satAdd 65535 p.accepted 1 ∧
                (gap ≠ 1 → (u.port n).sequence = satAdd 255 p.sequence 1) ∧
                let x := nth (u.port n).nodes m {}
                x.lastSeq = some (rxSeq f) ∧ x.status = frameField f 39 1 ∧ x.stale = false ∧ x.lastAt = s.now))))) ∧
    (∀ m : Fin 8,
      let x := nth p.nodes m {}
      let due := s.now % 100000 = 0 ∧ ((nodeDef b m).role = 1 ∨ (nodeDef b m).role = 3) ∧ x.stale = false ∧
        x.lastAt + 1000000 * (nodeDef b m).timeout ≤ s.now
      (due → s.gives (.fpFeedbackTimeout n m) (raiseAlarm 0x0B04 (256 * n + m) 0 (setNode n m (fun x => { x with stale := true }) s))) ∧
      (¬ due → s.gives (.fpFeedbackTimeout n m) s)) ∧
    (b.field 0 ≠ 0 → p.plcaOk = true → s.gives (.plcaCoordinatorLost n)
      (raiseAlarm 0x0B06 n 0 (setFp n (fun x => { x with plcaOk := false, plcaLosses := satAdd 65535 x.plcaLosses 1 }) s))) ∧
    (b.field 0 = 0 ∨ p.plcaOk = false → s.gives (.plcaCoordinatorLost n) s) ∧
    s.gives (.plcaResume n) (setFp n (fun x => { x with plcaOk := true }) s))

/-- The Peer Links.  A training with the far end of R459 brings a link up with fresh sequence numbers and credits; another report, or the third failure in
succession, takes it down with 0x0B10 (R459, R461); four NAKs and a credit that does not come retrain it (R461, R462); a flit out of sequence is answered
with a NAK, at once and in a NULL flit where nothing waits to be sent (log 32), one in sequence joins its message, returns its place as a credit, and a
malformed message is refused whole (R460, R461, R464; a flit whose fields R460 does not allow refuses its message, the model's choice, log 90).  A DELTA is
heard, each record sets INJ, is logged under the open epoch, or is dropped, late or outside (R159, R160, R466), and a request for full state follows when
records resume (R172); a request is answered with the non-zero words of the export mask, and a FULL_STATE sets INJ within the authority mask in the slices
that it covers and ends the forcing, but is not heard as a record (R466; log 92); a CAND is placed, held within the 64 flits of VC 1, discarded, or refused
as too long, and GATHER_LIMIT completes the gather (R462, R464, R469; logs 41 and 91); CONFIG ends the arm that waits for it (R467); a link that is down
retries its training at whole multiples of 10 ms from its failure (log 80). -/
def Obligations.PeerLinks : Prop :=
  ∀ (n : Fin 7) (s : State), s.awake = true → s.pl.links.length = 7 →
    let p := s.peer n
    let fresh (u : State) (f : FarEnd) : Prop :=
      let x := u.peer n
      x.up = true ∧ x.farPos = f.position.val ∧ x.txSeq = 0 ∧ x.rxSeq = 0 ∧ x.replay = [] ∧ x.waiting = [[], [], [], []] ∧
        x.credits = [8, 64, 256, 64] ∧ x.partialMsg = [none, none, none, none] ∧ x.freed = [0, 0, 0, 0] ∧ x.held = [] ∧
        ∀ k, k ≠ n.val → u.peer k = s.peer k
    let down (u : State) : Prop := (u.peer n).up = false ∧ (u.peer n).waiting = [[], [], [], []] ∧ u.alarmSet 0x0B10 = true ∧
      (u.peer n).discarded = satAdd 255 p.discarded p.waitingMessages ∧ (u.peer n).downAt = s.now
    let retry : Prop := p.up = false ∧ p.downAt < s.now ∧ (s.now - p.downAt) % 10000000 = 0
    (∀ f : FarEnd, f.position.val = (s.boardPos + n + 1) % 8 → f.link.val + n = 6 →
      (p.up = false → ∃ u : State, s.gives (.plLinkTraining n (some f)) u ∧ fresh u f) ∧
      (p.up = true → s.gives (.plLinkTraining n (some f)) (setPeer n (fun x => { x with retrainFails := 0, farPos := f.position.val }) s)) ∧
      (retry → ∃ u : State, s.gives (.plRetrainRetry n (some f)) u ∧ fresh u f ∧ (u.peer n).retrains = satAdd 255 p.retrains 1)) ∧
    (∀ f : FarEnd, f.position.val ≠ (s.boardPos + n + 1) % 8 ∨ f.link.val + n ≠ 6 → ∃ u : State, s.gives (.plLinkTraining n (some f)) u ∧ down u) ∧
    (p.up = false → s.gives (.plLinkTraining n none) s) ∧
    (p.up = true → p.retrainFails < 2 → s.gives (.plLinkTraining n none) (setPeer n (fun x => { x with retrainFails := x.retrainFails + 1 }) s)) ∧
    (p.up = true → 2 ≤ p.retrainFails → ∃ u : State, s.gives (.plLinkTraining n none) u ∧ down u) ∧
    (∀ f, ¬ retry → s.gives (.plRetrainRetry n f) s) ∧
    (retry → s.gives (.plRetrainRetry n none) (setPeer n (fun x => { x with retrains := satAdd 255 x.retrains 1 }) s)) ∧
    (p.up = true → 4 ≤ p.nakCount →
      s.gives (.plRetryLimit n) (setPeer n (fun x => { x with retrains := satAdd 255 x.retrains 1, nakCount := 0 }) (raiseAlarm 0x0B11 0 0 s))) ∧
    (p.up = false ∨ p.nakCount < 4 → s.gives (.plRetryLimit n) s) ∧
    (∀ v : Fin 4,
      let due := p.up = true ∧ nth p.waiting v [] ≠ [] ∧ nth p.credits v 0 = 0 ∧ nth p.waitSince v 0 + 100000 ≤ s.now
      (¬ due → s.gives (.plCreditTimeout n v) s) ∧
      (due → ∃ u : State, s.gives (.plCreditTimeout n v) u ∧ (u.peer n).retrains = satAdd 255 p.retrains 1 ∧ u.alarmSet 0x0B13 = true ∧
        (u.peer n).waiting = p.waiting)) ∧
    (∀ f : Flit, let takes (u : State) : Prop := s.gives (.plFlitReceive n f) u
      let idle : Prop := p.waitCount = 0
      (p.up = false → takes s) ∧
      (p.up = true → f.crcOk = false →
        takes (setPeer n (fun x => { x with crcErrors := satAdd 65535 x.crcErrors 1 }.discardFlit) s)) ∧
      (p.up = true → f.crcOk = true → f.fseq ≠ p.rxSeq → takes (setPeer n PeerLink.discardFlit s)) ∧
      (idle → p.discardFlit.rxSeq = p.rxSeq ∧ p.discardFlit.credits = p.credits ∧ p.discardFlit.partialMsg = p.partialMsg ∧
        p.discardFlit.lastFlit = { nullFlit with returned := p.freed.map (min 255) }.bytes p.txSeq (p.rxSeq - 1) true) ∧
      (p.up = true → f.crcOk = true → f.fseq = p.rxSeq → p.partialMsg.length = 4 → p.refusing.length = 4 →
        ∃ u : State, takes u ∧ (u.peer n).rxSeq = p.rxSeq + 1 ∧
          (f.nak = true → (u.peer n).replays = satAdd 65535 p.replays 1 ∧ (u.peer n).nakSeq = f.ack) ∧
          (f.nak = false → (u.peer n).nakCount = 0) ∧
          (idle → ∀ v, v < 4 → nth (u.peer n).credits v 0 = nth p.credits v 0 + bits f.credits.toNat (8 * v) 8) ∧
          let used := f.used.toNat
          let formOk := f.zeros = true ∧ 1 ≤ used ∧ used ≤ 236
          (f.null = true → (u.peer n).partialMsg = p.partialMsg ∧ (u.peer n).rxFlits = p.rxFlits ∧
            (u.peer n).malformed = if f.zeros = true ∧ used = 0 then p.malformed else satAdd 255 p.malformed 1) ∧
          (f.null = false → f.vc ≠ 1 → idle → p.freed = [0, 0, 0, 0] → p.nakOut = false →
            (u.peer n).lastFlit = { nullFlit with returned := upd [0, 0, 0, 0] f.vc (· + 1) }.bytes p.txSeq f.fseq false) ∧
          (f.null = false →
            let old := nth p.partialMsg f.vc none
            let joined := (if f.start then [] else old.getD []) ++ (f.payload ++ List.replicate 236 0).take used
            let before := if f.start = true ∧ old ≠ none then satAdd 255 p.malformed 1 else p.malformed
            let became (m : Nat) (part : Option (List Byte)) (rest : Bool) : Prop :=
              (u.peer n).malformed = m ∧ nth (u.peer n).partialMsg f.vc none = part ∧ nth (u.peer n).refusing f.vc false = rest
            (u.peer n).rxFlits = satAdd 4294967295 p.rxFlits 1 ∧
            (f.start = false → old = none → nth p.refusing f.vc false = true → became p.malformed none (!f.last)) ∧
            (f.start = false → old = none → nth p.refusing f.vc false = false → became (satAdd 255 p.malformed 1) none (!f.last)) ∧
            (f.start = true ∨ old ≠ none → ¬ formOk → became (satAdd 255 before 1) none (!f.last)) ∧
            (f.start = true ∨ old ≠ none → formOk → f.last = false →
              (u.peer n).malformed = before ∧ nth (u.peer n).partialMsg f.vc none = some joined) ∧
            (f.start = true ∨ old ≠ none → formOk → f.last = true →
              became (if malformed s.candWords joined then satAdd 255 before 1 else before) none false)))) ∧
    (∀ tag more records, s.occCtx = none → s.gives (.deltaMessage n tag more records) s) ∧
    (∀ c tag more records, s.occCtx = some c →
      let resumes := s.occ.peerForced.getLsbD n = true ∧ s.occ.peerTimeout.getLsbD n = true
      let heard := peerHeard n s
      (s.peerEnabled n = false ∨ c.hasPeer n = false → s.gives (.deltaMessage n tag more records) s) ∧
      (s.peerEnabled n = true → c.hasPeer n = true →
        (∃ u : State, s.gives (.deltaMessage n tag more records) u ∧ u.occ.lastPeer = s.occ.lastPeer.set n s.now ∧
          u.occ.peerTimeout = s.occ.peerTimeout &&& ~~~(1#7 <<< n.val) ∧ u.occ.peerForced = s.occ.peerForced ∧
          u.occ.openEpoch = s.occ.openEpoch ∧
          (resumes → u.pl.links = (sendMessage n 3 0 0 [] s).pl.links) ∧ (¬ resumes → u.pl.links = s.pl.links)) ∧
        (∀ r, c.slice s.now = s.occ.tc → s.occ.injecting = none → ¬ resumes →
          let gives (u : State) : Prop := s.gives (.deltaMessage n tag more [r]) u
          let dist := (bits r.toNat 24 8 + 256 - s.occ.tc % 256) % 256
          (c.mapVoxel n (bits r.toNat 0 23) = none → gives { heard with occ.outside := satAdd 4294967295 s.occ.outside 1 }) ∧
          (∀ v, c.mapVoxel n (bits r.toNat 0 23) = some v →
            let dropped := outOfRange (8 + n) (r.toNat - bits r.toNat 0 23 + v) c.jobId c.block.service
              { heard with occ.drops := satAdd 4294967295 s.occ.drops 1 }
            let t := s.occ.tc + dist
            let key := c.injAt t (v / 256)
            let bit : Word := 1#256 <<< (v % 256)
            (240 ≤ dist → gives { heard with occ.lateRecords := satAdd 65535 s.occ.lateRecords 1 }) ∧
            (15 < dist → dist < 240 → gives dropped) ∧
            (∀ m, dist ≤ 15 → s.reads (c.authAt n (v / 256)) m = true → m.getLsbD (v % 256) = false → gives dropped) ∧
            (∀ m old, dist ≤ 15 → s.reads (c.authAt n (v / 256)) m = true → m.getLsbD (v % 256) = true → s.reads key old = true →
              s.mem.wf = true → s.memCtl.flip = none → v < 8388608 →
              ∃ u : State, gives u ∧ u.reads key (if r.getLsbD 23 then old ||| bit else old &&& ~~~bit) = true ∧
                u.occ.openEpoch = s.occ.openEpoch ∧ u.occ.openLog = s.occ.openLog ∧ u.occ.drops = s.occ.drops ∧
                u.occ.lateRecords = s.occ.lateRecords ∧
                ∀ q, 1 ≤ dist → (s.predWritten t = true → s.reads (c.predAt t (v / 256)) q = true) → (s.predWritten t = false → q = 0) →
                  r.getLsbD 23 = true →
                  ((old ||| q).getLsbD (v % 256) = true → u.occ.openFill = s.occ.openFill ∧ u.occ.openRebuild = s.occ.openRebuild) ∧
                  ((old ||| q).getLsbD (v % 256) = false → 1048576 ≤ s.occ.openFill → u.occ.openRebuild = true) ∧
                  ((old ||| q).getLsbD (v % 256) = false → s.occ.openFill < 1048576 → u.occ.openFill = s.occ.openFill + 1 ∧
                    ∀ lw, s.reads (c.logAt s.occ.openLog (s.occ.openFill / 8)) lw = true →
                      ∃ w, u.reads (c.logAt s.occ.openLog (s.occ.openFill / 8)) w = true ∧
                        Word.get w (32 * (s.occ.openFill % 8)) 32 = v + 8388608 + t % 256 * 16777216)))))) ∧
    (s.occCtx = none ∨ s.occ.exportAt = none → s.gives (.fullStateReq n) s) ∧
    (∀ c k, s.occCtx = some c → s.occ.exportAt = some k → c.slice s.now = s.occ.tc →
      (s.occ.exportWords < 32768 * (n + 1) → s.gives (.fullStateReq n) (sendMessage n 4 0 (s.occ.tc % 2 ^ 32) [] s)) ∧
      (32768 * (n + 1) ≤ s.occ.exportWords →
        ∃ (u v : State) (es : List FullEntry), s.gives (.fullStateReq n) u ∧ u = sendMessage n 4 0 (s.occ.tc % 2 ^ 32) (es.flatMap fullEntryBytes) v ∧
          v.pl = s.pl ∧ u.occ.exportAt = some k ∧
          (p.up = true → p.waiting.length = 4 → nth p.credits 3 0 = 0 →
            let bytes := messageBytes 4 0 (s.occ.tc % 2 ^ 32) (es.flatMap fullEntryBytes)
            nth (u.peer n).waiting 3 [] = nth p.waiting 3 [] ++ messageFlits 3 bytes.length true bytes) ∧
          ∀ d i m a q, 1 ≤ d → d < 16 → i < 32768 → s.reads (k + 32768 * n + i) m = true → s.reads (c.injAt (s.occ.tc + d) i) a = true →
            (s.predWritten (s.occ.tc + d) = true → s.reads (c.predAt (s.occ.tc + d) i) q = true) → (s.predWritten (s.occ.tc + d) = false → q = 0) →
            ∀ e : FullEntry, e.sliceTag = BitVec.ofNat 8 (s.occ.tc + d) → e.wordIndex = BitVec.ofNat 16 i →
              (e ∈ es ↔ e.word = (a ||| q) &&& m ∧ e.word ≠ 0))) ∧
    (∀ tag es, s.occCtx = none ∨ s.peerEnabled n = false ∨ (∃ c, s.occCtx = some c ∧ c.hasPeer n = false) → s.gives (.fullState n tag es) s) ∧
    (∀ c tag es, s.occCtx = some c → s.peerEnabled n = true → c.hasPeer n = true →
      ∃ u : State, s.gives (.fullState n tag es) u ∧ u.occ.peerForced = s.occ.peerForced &&& ~~~(1#7 <<< n.val) ∧
        u.occ.lastPeer = s.occ.lastPeer ∧ u.occ.peerTimeout = s.occ.peerTimeout ∧ u.occ.openEpoch = s.occ.openEpoch ∧
        (c.slice s.now = s.occ.tc → s.occ.injecting = none → s.mem.wf = true → s.memCtl.flip = none →
          s.occ.openFill ≤ u.occ.openFill ∧
          ∀ d i old m, d < 16 → i < 32768 → s.reads (c.injAt (s.occ.tc + d) i) old = true → s.reads (c.authAt n i) m = true →
            let covered := ((s.occ.tc + d) % 2 ^ 32 + 2 ^ 32 - tag.toNat) % 2 ^ 32 < 16
            (¬ covered → u.reads (c.injAt (s.occ.tc + d) i) old = true) ∧
            (covered → ∃ w : Word, u.reads (c.injAt (s.occ.tc + d) i) w = true ∧ ∀ k, k < 256 →
              (w.getLsbD k = true ↔ if m.getLsbD k then
                  ∃ e ∈ es, e.sliceTag.toNat = (s.occ.tc + d) % 256 ∧ e.wordIndex.toNat < 32768 ∧ ∃ x, x < 256 ∧ e.word.getLsbD x = true ∧
                    c.mapVoxel n (256 * e.wordIndex.toNat + x) = some (256 * i + k)
                else old.getLsbD k = true)))) ∧
    (∀ tag list,
      let head := nth list 0 0
      let room := ((p.held.map fun x => ceilDiv (16 + 32 * x.list.length) 236).foldl (· + ·) 0) + ceilDiv (16 + 32 * list.length) 236 ≤ 64
      let gives (u : State) : Prop := s.gives (.candMessage n tag list) u
      let kept := setPeer n (fun x => { x with held := x.held ++ [⟨tag, list⟩] }) s
      (s.peerEnabled n = false → gives (freeList n list s)) ∧
      (s.peerEnabled n = true → s.candWords head.toNat < list.length →
        gives (freeList n list (setPeer n (fun x => { x with malformed := satAdd 255 x.malformed 1 }) s))) ∧
      (s.peerEnabled n = true → list.length ≤ s.candWords head.toNat → s.gatherOn n = none →
        (s.gatherPast tag list = true → gives (freeList n list s)) ∧
        (s.gatherPast tag list = false → (room → gives kept) ∧ (¬ room → gives s))) ∧
      (∀ g it j b, s.peerEnabled n = true → list.length ≤ s.candWords head.toNat → s.pl.gathers = [g] → n.val ∈ g.links →
        s.runningItem g.item 0x0B03 = some (it, j) → j.itemChannel it = some b →
        let takesIt := tag = g.tag ∧ Word.get head 40 4 = g.channel ∧ Word.get head 32 5 ≤ b.field 7
        let left := g.missing.filter (· != n.val)
        (takesIt → n.val ∈ g.missing → left ≠ [] →
          ∃ (u : State) (h : Gather), gives u ∧ u.pl.gathers = [h] ∧ h.item = g.item ∧ h.missing = left ∧ h.discarded = g.discarded ∧
            (bits (Entry.param it.entry) 11 16 = 0 →
              u.mem = (writeOut j it 1 ((1 + (g.links.filter (· < n.val)).length) * listWords (b.field 7))
                ((clean list ++ clean (List.replicate (listWords (b.field 7)) 0)).take (listWords (b.field 7))) s).1.mem)) ∧
        (takesIt → n.val ∈ g.missing → left = [] → ∃ (u : State) (d : Nat),
          s.results (.candMessage n tag list) g.item (done .ok 0 0 g.discarded d) u ∧ u.pl.gathers = []) ∧
        (tagOlder tag g.tag = true → g.missing ≠ [] → ∃ (u : State) (h : Gather), gives u ∧ u.pl.gathers = [h] ∧ h.missing = g.missing ∧
          h.discarded = satAdd 65535 g.discarded 1) ∧
        (tag ≠ g.tag → tagOlder tag g.tag = false → g.missing ≠ [] → room → gives kept))) ∧
    (∀ id, (∀ g ∈ s.pl.gathers, g.item ≠ id) → s.gives (.gatherLimitExpiry id) s) ∧
    (∀ g it j b sp, s.pl.gathers = [g] → s.runningItem g.item 0x0B03 = some (it, j) → j.itemChannel it = some b → j.operandSpan it.entry 1 = some sp →
      let mask := g.missing.foldl (fun a k => a + 2 ^ k) 0
      (s.now < g.limit → s.gives (.gatherLimitExpiry g.item) s) ∧
      (∀ h, g.limit ≤ s.now → s.reads sp.key h = true → ∃ (u : State) (d : Nat),
        s.results (.gatherLimitExpiry g.item) g.item (done .ok 0 mask g.discarded d) u ∧ u.pl.gathers = [] ∧
        ∀ m, g.missing = [m] → u.mem = (writeOut j it 1 ((1 + (g.links.filter (· < m)).length) * listWords (b.field 7))
          (clean (word (setBits h.toNat 32 5 0) :: List.replicate (10 * b.field 7) 0)) s).1.mem) ∧
      (∀ v h, g.limit ≤ s.now → readWord it.requester sp.key s = (v, h) → h.bad = true → ∃ (u : State) (d : Nat),
        s.results (.gatherLimitExpiry g.item) g.item (done .poisoned 0x0A01 0 0 d) u ∧ u.pl.gathers = [])) ∧
    (∀ period phase pitch sig,
      (s.peerEnabled n = false → s.arming = none → s.gives (.configMessage n period phase pitch sig) s) ∧
      (s.peerEnabled n = true → s.arming = none → s.gives (.configMessage n period phase pitch sig)
        (setPeer n (fun x => { x with config := some ⟨period.toNat, phase.toNat, pitch.toNat, sig⟩ }) s)) ∧
      (∀ a j u x, s.peerEnabled n = true → s.arming = some a → s.jobIn a.slot = some j →
        let kept := setPeer n (fun x => { x with config := some ⟨period.toNat, phase.toNat, pitch.toNat, sig⟩ }) s
        (configsIn kept j = false → s.gives (.configMessage n period phase pitch sig) kept) ∧
        (configsIn kept j = true → runProg (finishArmProg a.slot j a.syncs a.launch) { kept with arming := none } = (u, .ok x) →
          s.gives (.configMessage n period phase pitch sig) (finish a.mbx { job := j.id } u)))) ∧
    (s.arming = none → s.gives (.peerConfigTimeout n) s) ∧
    (∀ a j, s.arming = some a → s.jobIn a.slot = some j → n.val ∈ j.peerLinks → p.config = none →
      (s.now < a.since + 10000000 → s.gives (.peerConfigTimeout n) s) ∧
      (a.since + 10000000 ≤ s.now → s.gives (.peerConfigTimeout n)
        (finish a.mbx { status := .refused, reason := 0x010E, job := j.id, a := n.val } (clearConfigs j { s with arming := none }))))

/-- Memories.  A whole-word write keeps the canonical form, reads back clean, leaves every other word and voids the word's pending write-back (R389, R404); the
write-back of the word that is first in order mends it in place (R389); ended windows close with their event (R390); with AUTO_REPAIR the candidate that
has waited longest is repaired while spares stand, and one that cannot be repaired is passed over, the model's choice (R410, R411; log 42); a write-back to LPDDR5 that has waited 10 µs is promoted (R397). -/
def Obligations.MemoryUpkeep : Prop :=
  (∀ (k : Nat) (d : Word) (s : State), s.mem.wf = true → s.memCtl.flip = none →
    let u := writeWord k d s
    u.mem.wf = true ∧ u.reads k d = true ∧ (∀ a, a ≠ k → u.mem.get a = s.mem.get a) ∧ (∀ w ∈ u.memCtl.writeBacks, w.key ≠ k)) ∧
  (∀ (s : State), s.awake = true →
    (s.memCtl.writeBacks = [] → s.gives .eccWriteBack s) ∧
    (∀ w l, s.memCtl.writeBacks.filter (·.class1) = w :: l ∨ s.memCtl.writeBacks.filter (·.class1) = [] ∧ s.memCtl.writeBacks = w :: l →
      ∃ u : State, s.gives .eccWriteBack u ∧ u.memCtl.writeBacks = s.memCtl.writeBacks.filter (·.key != w.key) ∧
        (∀ st d b x, s.mem.get w.key = some st → decodeStored (s.rowCol w.key) st = .corrected d b x →
          u.mem = s.mem.put w.key (some (encodeWord (s.rowCol w.key) d))) ∧
        (∀ st d, s.mem.get w.key = some st → decodeStored (s.rowCol w.key) st = .clean d → u.mem = s.mem)) ∧
    ((∀ w ∈ s.memCtl.windows, s.now / 1000000 ≤ w.gcnt.toNat / 1000000) → s.gives .correctionWindowEnd s) ∧
    (∃ u : State, s.gives .correctionWindowEnd u ∧
      u.memCtl.windows = s.memCtl.windows.filter fun w => decide (s.now / 1000000 ≤ w.gcnt.toNat / 1000000)) ∧
    (∀ w, s.memCtl.windows = [w] → w.gcnt.toNat / 1000000 < s.now / 1000000 →
      s.gives .correctionWindowEnd (writeEvent { s.event 0x0A02 w.requester with
        job := w.job, service := w.service,
        a := at_ w.memory 0 4 ||| at_ w.inst 4 8 ||| at_ (b2n w.rowCol) 12 1 ||| at_ (b2n w.hard) 15 1,
        b := w.count, value := w.syndrome.toNat, gcnt := w.gcnt.toNat, lpos := w.addr } { s with memCtl.windows := [] })) ∧
    (s.memCtl.candidates = [] ∨ s.devField 6 159 1 ≠ 1 ∨ s.fw.stage ≠ .running → s.gives .autoRepair s) ∧
    (∀ c l, s.memCtl.candidates = c :: l → s.devField 6 159 1 = 1 → s.fw.stage = .running →
      let r := autoRepairOf s c
      (s.memCtl.softRepairs.length < 32 → s.sparesUsed r < spares r.memory r.column → ∃ u : State, s.gives .autoRepair u ∧
        u.memCtl.candidates = l ∧ u.memCtl.softRepairs = s.memCtl.softRepairs ++ [r] ∧
        u.memCtl.repairsApplied = satAdd 65535 s.memCtl.repairsApplied 1) ∧
      (32 ≤ s.memCtl.softRepairs.length ∨ spares r.memory r.column ≤ s.sparesUsed r →
        s.gives .autoRepair { s with memCtl.candidates := l })) ∧
    (∃ u : State, s.gives .mcRequestPromotion u ∧ u.memCtl.writeBacks.length = s.memCtl.writeBacks.length ∧
      ∀ w ∈ s.memCtl.writeBacks,
        (w.class1 = false → (keyMem w.key).1 = memLpddr → w.since + 10000 ≤ s.now → { w with class1 := true } ∈ u.memCtl.writeBacks) ∧
        (w.class1 = true ∨ (keyMem w.key).1 ≠ memLpddr ∨ s.now < w.since + 10000 → w ∈ u.memCtl.writeBacks)))

/-- The two codes: every word decodes clean as it is stored; a single wrong bit, of the data or of the check bits, is corrected and the data delivered as
written; two wrong data bits are never delivered as data; the poison mark decodes as poison (R384 to R387, R391). -/
def Obligations.CodesCorrectOneBit : Prop :=
  ∀ (rowCol : Bool) (d : Word),
    let st := encodeWord rowCol d
    decodeStored rowCol st = .clean d ∧
    (∀ i, i < 256 → ∃ x, decodeStored rowCol { st with data := d ^^^ (1#256 <<< i) } = .corrected d i x) ∧
    (∀ i, i < (if rowCol then 32 else 10) → ∃ b x, 256 ≤ b ∧ decodeStored rowCol { st with check := st.check ^^^ (1#32 <<< i) } = .corrected d b x) ∧
    (∀ i k, i < 256 → k < 256 → i ≠ k →
      decodeStored rowCol { st with data := d ^^^ (1#256 <<< i) ^^^ (1#256 <<< k) } = .poison ∨
        ∃ x, decodeStored rowCol { st with data := d ^^^ (1#256 <<< i) ^^^ (1#256 <<< k) } = .uncorrectable x) ∧
    decodeStored rowCol (poisonStored rowCol) = .poison

/-- Safety Manager, self-test and firmware cores: SAFE_REQ and its release after SAFE_REQ_RELEASE (R367), the readback of SAFE_OK at every 1,000th count, of which two wrong readings latch
OUTPUT_READBACK (R366), the coverage age at every 100,000th, judged once a first round has covered every slice (R372; log 52), the slices (R371 to R373),
the watchdogs, which expire no sooner than 2.0 ms after a core's latest kick, and their cores (R435; the model's kicks, log 89). -/
def Obligations.SafetyAndCores : Prop :=
  ∀ (s : State), s.awake = true →
    (s.sm.safeReq = true → s.gives .safeReqAssert { s with sm.safeReqAt := s.now }) ∧
    (s.sm.safeReq = false → ∃ u : State, s.gives .safeReqAssert u ∧ u.sm.safeReq = true ∧ u.sm.safeReqAt = s.now ∧ u.sm.latched = s.sm.latched ||| 2#9 ∧ u.smState = 2 ∧
      (s.sm.safeReqSeen = true → u.alarmSet 0x0905 = true)) ∧
    (s.now < s.sm.safeReqAt + 1000000 * s.devField 7 6 10 → s.gives .safeReqRelease s) ∧
    (s.sm.safeReqAt + 1000000 * s.devField 7 6 10 ≤ s.now → s.gives .safeReqRelease { s with sm.safeReq := false, sm.safeReqSeen := true }) ∧
    (∀ p n,
      let driven := if s.smState ≠ 0 then (false, false) else if s.now / 50000 % 2 = 0 then (true, false) else (false, true)
      let reading (u : State) : Prop := s.gives (.safeOkReadback p n) u
      (s.now % 1000 ≠ 0 → reading s) ∧
      (s.now % 1000 = 0 → (p, n) = driven → reading { s with sm.readbackMiss := 0 }) ∧
      (s.now % 1000 = 0 → (p, n) ≠ driven → s.sm.readbackMiss = 0 → reading { s with sm.readbackMiss := 1 }) ∧
      (s.now % 1000 = 0 → (p, n) ≠ driven → s.sm.readbackMiss = 1 → s.sm.latched.getLsbD 6 = false →
        ∃ u : State, reading u ∧ u.sm.latched = s.sm.latched ||| 64#9 ∧ u.smState = 2 ∧ u.alarmSet 0x0904 = true ∧ u.sm.lastFail = 0xFFF2)) ∧
    (let beyond := s.sm.covered = true ∧ ∃ a, s.coverageAge = some a ∧ 1000000 * s.devField 7 2 100 < a
     (s.now % 100000 ≠ 0 → s.gives .coverageEvaluation s) ∧
     (s.now % 100000 = 0 → ¬ beyond → s.gives .coverageEvaluation { s with sm.overdue := false }) ∧
     (s.now % 100000 = 0 → beyond → s.sm.overdue = true → s.gives .coverageEvaluation s) ∧
     (s.now % 100000 = 0 → beyond → s.sm.overdue = false → ∃ u : State, s.gives .coverageEvaluation u ∧ u.sm.overdue = true ∧
       u.sm.latched = s.sm.latched ||| 4#9 ∧ u.alarmSet 0x0903 = true)) ∧
    (∀ x,
      (s.mayTest x = false → s.gives (.selftestSliceStart x) s) ∧
      (s.mayTest x = true → s.fitsWindow x = false → ∃ u : State, s.gives (.selftestSliceStart x) u ∧ u.sm.running = s.sm.running) ∧
      (s.mayTest x = true → s.fitsWindow x = true → (∀ y, s.inPlan y = true → s.mayTest y = true → s.fitsWindow y = true → s.testBefore y x = false) →
        ∃ u : State, s.gives (.selftestSliceStart x) u ∧ u.sm.running = s.sm.running ++ [⟨x, s.now⟩] ∧
          (∀ e, instEngine x.cls x.inst = some e → e ∉ u.shu.gets) ∧ (x.cls = .tracerGroup → ∀ n, .tracer n ∉ u.shu.gets)) ∧
      (∀ pass, (∀ r ∈ s.sm.running, r.slice ≠ x) → s.gives (.selftestSliceEnd x pass) s) ∧
      (∀ start pass, s.sm.running = [⟨x, start⟩] →
        (s.now < start + 1000 * sliceLength x.cls → s.gives (.selftestSliceEnd x pass) s) ∧
        (start + 1000 * sliceLength x.cls ≤ s.now → ∃ u : State, s.gives (.selftestSliceEnd x pass) u ∧ u.sm.running = [] ∧
          (pass = true → u.lastPass x = some s.now ∧ u.sm.excluded = s.sm.excluded) ∧
          (pass = false → (x.cls, x.inst.val) ∈ u.sm.excluded ∧ u.alarmSet 0x0904 = true ∧
            u.sm.lastFail = BitVec.ofNat 16 (256 * classCode x.cls + x.inst) ∧
            (x.cls ∈ [TestClass.lane, .darn, .tracerGroup, .seam] → u.sm.latched.getLsbD 3 = true ∧ u.smState = 2))))) ∧
    (∀ n : Fin 4,
      (s.fw.stage ≠ .running ∨ s.fw.ready.getLsbD n = false ∨ s.now < s.lastKick n + 2000000 → s.gives (.watchdogExpiry n) s) ∧
      (s.fw.stage = .running → s.fw.ready.getLsbD n = true → s.lastKick n + 2000000 ≤ s.now → s.accepted = [] → s.serialBusy = none → s.line.syncArm = [] → s.disarming = none →
        s.arming = none → (∀ it ∈ s.shu.items, it.phase = .running → it.engine ≠ some (.cc n)) →
        ∃ u : State, s.gives (.watchdogExpiry n) u ∧ u.fw.ready = s.fw.ready &&& ~~~(1#4 <<< n.val) ∧ u.fw.expired = s.fw.expired ||| (1#4 <<< n.val) ∧
          u.fw.held = (if s.secondExpiry n then s.fw.held ||| (1#4 <<< n.val) else s.fw.held) ∧
          u.fw.stuck = (if s.secondExpiry n then s.fw.stuck ||| (1#4 <<< n.val) else s.fw.stuck) ∧ u.sm.latched.getLsbD 7 = true ∧
          u.alarmSet 0x0C04 = true ∧ .cc n ∉ u.shu.gets) ∧
      (s.fw.stage = .bootRom ∨ s.fw.held.getLsbD n = true ∨ s.fw.ready.getLsbD n = true → s.gives (.ccCoreReady n) s) ∧
      (s.fw.stage = .running → s.fw.held.getLsbD n = false → s.fw.ready.getLsbD n = false → s.accepted = [] → s.gives (.ccCoreReady n)
        { s with fw.ready := s.fw.ready ||| (1#4 <<< n.val), fw.expired := s.fw.expired &&& ~~~(1#4 <<< n.val),
                 fw.kicked := upd s.fw.kicked n fun _ => s.now }) ∧
      (s.fw.stage = .updating → s.fw.held.getLsbD n = false → s.fw.ready.getLsbD n = false →
        let ready := s.fw.ready ||| (1#4 <<< n.val)
        let u : State := { s with fw.ready := ready, fw.expired := s.fw.expired &&& ~~~(1#4 <<< n.val), fw.kicked := upd s.fw.kicked n fun _ => s.now }
        (ready ≠ 0xF#4 → s.gives (.ccCoreReady n) u) ∧
        (∀ m, ready = 0xF#4 → s.serialBusy = some m → s.accepted = [] → s.gives (.ccCoreReady n)
          { completeMailbox m {} { u with fw.stage := .running } with serialBusy := none })))

/-- Power, tamper and the wake.  POWER_STATE (R501); a tamper event wipes the Thimble and latches TAMPER (R511); the end of a wipe puts the burned life cycle in
force (R508); PORST_N and the loss of rails leave the Fuse Map and, while VDD_AON stands, the commit queue (R412, R499); the switches open when they are due
(R501); a wake finds the fuses and TEST_MODE (R500), burns the commit queue and leaves the device as R503 lists.  An open transition survives a loss of power as burned, and the
wake takes no time: the model's choices (logs 33 and 54), as is what TEST_MODE leaves in the state (log 101). -/
def Obligations.PowerAndReset : Prop :=
  (∀ (n : Fin 4) (q : BitVec 16) (s : State), s.takes n 0x0C04 = true →
    let wanted := bits (arg (s.arguments n) 0) 0 2
    let u := s.issued n 0x0C04 q
    (s.activeJob.isSome = true → s.completes (.powerState n q) n { status := .refused, reason := 0x0112 } u) ∧
    (s.activeJob = none → wanted = 0 → s.completes (.powerState n q) n {} { u with power := .on }) ∧
    (s.activeJob = none → wanted = 1 → s.power = .idle → s.completes (.powerState n q) n {} u) ∧
    (s.activeJob = none → wanted = 1 → s.power = .on →
      s.completes (.powerState n q) n {} { u with power := .idle, lcc.idleEntries := satAdd 65535 u.lcc.idleEntries 1, sm.running := [] }) ∧
    (s.activeJob = none → wanted = 2 → s.completes (.powerState n q) n {} { u with lcc.offAt := some (s.lcc.offAt.getD (s.now + 1000000)) }) ∧
    (s.activeJob = none → wanted = 3 → s.completes (.powerState n q) n { status := .refused, reason := 0x0105 } u)) ∧
  (∀ (src : TamperSource) (s : State), s.awake = true →
    (s.lcc.tamperArmed = false → s.gives (.tamperEvent src) s) ∧
    (s.lcc.tamperArmed = true → s.accepted = [] → ∃ u : State, s.gives (.tamperEvent src) u ∧ u.lcc.wipeRunning = true ∧ u.lcc.identity = false ∧
      u.lcc.tamper = s.lcc.tamper ||| BitVec.ofNat 4 (2 ^ (TamperSource.code src - 1)) ∧ u.lcc.tamperEvents = satAdd 65535 s.lcc.tamperEvents 1 ∧
      u.sm.latched.getLsbD 8 = true ∧ u.smState = 2 ∧ u.alarmSet 0x0C06 = true ∧ u.lcc.burn = none ∧
      (∀ b m, s.lcc.burn = some b → b.mbx = some m → m < s.mbx.length → (u.box m).busy = false ∧ (u.box m).done = true) ∧
      (s.lcc.burn = none → s.memCtl.flip = none → ∀ k, thimbleBase ≤ k → k < lpddrBase → u.mem.get k = some ⟨0, 0⟩))) ∧
  (∀ (s : State), s.awake = true →
    (s.lcc.wipeRunning = false → exec .thimbleWipeDone s = .next (settled s s)) ∧
    (s.lcc.wipeRunning = true → s.lcc.transition = none →
      exec .thimbleWipeDone s = .next (settled s { s with lcc.wipeRunning := false })) ∧
    (∀ m next, s.lcc.wipeRunning = true → s.lcc.transition = some (m, next) → s.accepted = [] → s.quiet = true → ∃ t : State,
      exec .thimbleWipeDone s = .next t ∧ t.lcc.fuses = s.lcc.fuses.withLife next ∧ t.lcc.transition = none ∧ t.lcc.wipeRunning = false ∧
        t.lcc.identity = ((next == .provisioned || next == .field) && s.lcc.tamper == 0))) ∧
  (∀ (s : State) (aonLost : Bool),
    let off (t : State) (aon : Bool) : Prop := t.awake = false ∧ t.power = .off ∧ t.mem = [] ∧ t.jobs = [none, none, none, none] ∧ t.gcnt = 0 ∧
      t.pending = s.pending ∧ t.grade = s.grade ∧ s.lcc.fuses.Keeps t.lcc.fuses ∧ t.lcc.fuses.fieldRepairs = s.lcc.fuses.fieldRepairs ∧
      t.lcc.fuses.fwKey = s.lcc.fuses.fwKey ∧ t.lcc.fuses.patternKeys = s.lcc.fuses.patternKeys ∧
      t.lcc.fuses.lifeCycle = (match s.lcc.transition with | some (_, next) => next | none => s.lcc.fuses.lifeCycle) ∧
      t.lcc.commitQueue = if aon then [] else s.lcc.commitQueue
    (∃ t : State, exec .porstAssert s = .next t ∧ off t false ∧ t.porstLow = true) ∧ (∃ t : State, exec (.powerRemoval aonLost) s = .next t ∧ off t aonLost) ∧
    (s.lcc.offAt = none → exec .powerOffSwitch s = .next s) ∧
    (∀ g, s.lcc.offAt = some g → (s.now < g → exec .powerOffSwitch s = .next s) ∧
      (g ≤ s.now → ∃ t : State, exec .powerOffSwitch s = .next t ∧ off t false))) ∧
  (∀ (s : State) (straps : Straps) (gib : Fin 65),
    (s.power ≠ .off → exec (.wake straps gib) s = .next s) ∧
    (s.power = .off →
      let woken (t : State) : Prop := t.power = .on ∧ t.boardPos = straps.bpos ∧ t.memCtl.regions = gib ∧ t.memCtl.clearDone = true ∧
        t.memCtl.maintenance = true ∧ t.line.state = .lost ∧ t.line.m = 0 ∧ t.line.v = 0 ∧ t.line.lossReason = 0x0B47 ∧ t.smState = 2 ∧
        t.sm.latched = 1 ∧ t.pat.active = none ∧ t.jobs = [none, none, none, none] ∧ t.fw.stage = .bootRom ∧ t.gcnt = 0 ∧ t.mem = [] ∧
        t.lcc.tamperArmed = true ∧ t.lcc.identity = decide (s.lcc.fuses.lifeCycle ∈ [LifeCycle.manufacture, .provisioned, .field]) ∧
        t.pending = s.pending ∧ t.grade = s.grade ∧ t.lcc.fuses.lifeCycle = s.lcc.fuses.lifeCycle ∧ t.porstLow = false ∧
        (t.lcc.factoryTest = true ↔ straps.testMode ≠ 0 ∧ s.lcc.fuses.lifeCycle ∈ [LifeCycle.blank, .manufacture])
      (s.lcc.commitQueue = [] → ∃ t : State, exec (.wake straps gib) s = .next t ∧ woken t ∧ t.lcc.fuses = s.lcc.fuses ∧ t.alarms = []) ∧
      (∀ r, s.lcc.commitQueue = [r] → s.lcc.fuses.fieldRepairs.length < 256 → ∃ t : State, exec (.wake straps gib) s = .next t ∧ woken t ∧
        t.lcc.fuses.fieldRepairs = s.lcc.fuses.fieldRepairs ++ [r] ∧ t.lcc.commitQueue = []) ∧
      (∀ r, s.lcc.commitQueue = [r] → 256 ≤ s.lcc.fuses.fieldRepairs.length → ∃ t : State, exec (.wake straps gib) s = .next t ∧ woken t ∧
        t.lcc.fuses.fieldRepairs = s.lcc.fuses.fieldRepairs ∧ t.lcc.commitQueue = [r] ∧ t.alarmSet 0x0A06 = true)))

/-- Reset leaves the values that the spec gives: the Global Counter at zero (R53), the line LOST at M = V = 0 with 0x0B47 (R43), the Safety Manager in Safe-Hold
by INIT (R362), Maintenance (R403), no memory word listed, zero with zero check bits in every on-chip word and nothing known of LPDDR5 (R406), no job, no
Pattern, the boot ROM, an empty queue, and fuses of which none is burned.  That the device is Off and its fuses blank is the model's choice (log 4), and so
are the zeros of the on-chip words before the first wake (log 1). -/
def Obligations.ResetValues : Prop :=
  let s := State.reset
  s.gcnt = 0 ∧ s.line.state = .lost ∧ s.line.m = 0 ∧ s.line.v = 0 ∧ s.line.lossReason = 0x0B47 ∧ s.sm.latched = 1 ∧ s.smState = 2 ∧
    s.memCtl.maintenance = true ∧ s.memCtl.merge = [] ∧ s.mem.wf = true ∧ (∀ k, k < lpddrBase ∨ innerBase ≤ k → s.mem.get k = some ⟨0, 0⟩) ∧
    (∀ k, lpddrBase ≤ k → k < innerBase → s.mem.get k = none) ∧ s.jobs = [none, none, none, none] ∧ s.pat.active = none ∧ s.fw.stage = .bootRom ∧
    s.pending = [] ∧ s.alarms = [] ∧ s.firstFault = none ∧ (∀ b ∈ s.mbx, b.busy = false) ∧ s.rings.cq.tail = 0 ∧ s.trc.valid = 0 ∧
    s.shu.items = [] ∧ s.awake = false ∧ FuseMap.Keeps {} s.lcc.fuses ∧ s.lcc.fuses.fwKey = none ∧ s.lcc.fuses.svnMin = 0
end

