-- ==== Sys2Proof/Laws/Reports.lean ====
section
/-!
SUPPORT. What reads, writes, events, completion records and alarms may change: the memories with their codes, the rings, the alarm table, the
vectors, the loaded structures of slot buffers and the counter of free values.
-/

namespace Sys2Proof.Machine

open Sys2Proof

/-- `t` is `s` but for the memories, the reports, the slot buffers' structures and the counter of free values. -/
def Reported (s t : State) : Prop :=
  t = { s with mem := t.mem, memCtl := t.memCtl, rings := t.rings, alarms := t.alarms, firstFault := t.firstFault, link := t.link,
               se := t.se, freeCount := t.freeCount }

theorem Reported.refl (s : State) : Reported s s := rfl

theorem Reported.trans {s t u : State} (h : Reported s t) (g : Reported t u) : Reported s u := by
  unfold Reported at *; rw [g, h]

theorem Reported.grade {s t : State} (h : Reported s t) : t.grade = s.grade := by rw [h]
theorem Reported.power {s t : State} (h : Reported s t) : t.power = s.power := by rw [h]
theorem Reported.boardPos {s t : State} (h : Reported s t) : t.boardPos = s.boardPos := by rw [h]
theorem Reported.gcnt {s t : State} (h : Reported s t) : t.gcnt = s.gcnt := by rw [h]
theorem Reported.me {s t : State} (h : Reported s t) : t.me = s.me := by rw [h]
theorem Reported.mbx {s t : State} (h : Reported s t) : t.mbx = s.mbx := by rw [h]
theorem Reported.accepted {s t : State} (h : Reported s t) : t.accepted = s.accepted := by rw [h]
theorem Reported.serialBusy {s t : State} (h : Reported s t) : t.serialBusy = s.serialBusy := by rw [h]
theorem Reported.disarming {s t : State} (h : Reported s t) : t.disarming = s.disarming := by rw [h]
theorem Reported.arming {s t : State} (h : Reported s t) : t.arming = s.arming := by rw [h]
theorem Reported.hiLatches {s t : State} (h : Reported s t) : t.hiLatches = s.hiLatches := by rw [h]
theorem Reported.reply {s t : State} (h : Reported s t) : t.reply = s.reply := by rw [h]
theorem Reported.fw {s t : State} (h : Reported s t) : t.fw = s.fw := by rw [h]
theorem Reported.line {s t : State} (h : Reported s t) : t.line = s.line := by rw [h]
theorem Reported.jobs {s t : State} (h : Reported s t) : t.jobs = s.jobs := by rw [h]
theorem Reported.devBlocks {s t : State} (h : Reported s t) : t.devBlocks = s.devBlocks := by rw [h]
theorem Reported.claims {s t : State} (h : Reported s t) : t.claims = s.claims := by rw [h]
theorem Reported.shu {s t : State} (h : Reported s t) : t.shu = s.shu := by rw [h]
theorem Reported.pat {s t : State} (h : Reported s t) : t.pat = s.pat := by rw [h]
theorem Reported.occ {s t : State} (h : Reported s t) : t.occ = s.occ := by rw [h]
theorem Reported.trc {s t : State} (h : Reported s t) : t.trc = s.trc := by rw [h]
theorem Reported.chans {s t : State} (h : Reported s t) : t.chans = s.chans := by rw [h]
theorem Reported.pse {s t : State} (h : Reported s t) : t.pse = s.pse := by rw [h]
theorem Reported.te {s t : State} (h : Reported s t) : t.te = s.te := by rw [h]
theorem Reported.tks {s t : State} (h : Reported s t) : t.tks = s.tks := by rw [h]
theorem Reported.fi {s t : State} (h : Reported s t) : t.fi = s.fi := by rw [h]
theorem Reported.sheet {s t : State} (h : Reported s t) : t.sheet = s.sheet := by rw [h]
theorem Reported.sm {s t : State} (h : Reported s t) : t.sm = s.sm := by rw [h]
theorem Reported.fp {s t : State} (h : Reported s t) : t.fp = s.fp := by rw [h]
theorem Reported.pl {s t : State} (h : Reported s t) : t.pl = s.pl := by rw [h]
theorem Reported.lcc {s t : State} (h : Reported s t) : t.lcc = s.lcc := by rw [h]
theorem Reported.pending {s t : State} (h : Reported s t) : t.pending = s.pending := by rw [h]

theorem memCtl_reported (s : State) (x : MemCtl) : Reported s { s with memCtl := x } := rfl

theorem dueVector_reported (v : Nat) (s : State) : Reported s (dueVector v s) := rfl

theorem raiseAlarm_reported (code a b : Nat) (s : State) : Reported s (raiseAlarm code a b s) := by
  rcases ha : s.alarm? (alarmClass code) with _ | r <;> rcases hf : s.firstFault with _ | f <;>
    simp [raiseAlarm, dueVector, Reported, ha, hf]

theorem violate_reported (r addr : Nat) (reg w n : Bool) (s : State) : Reported s (violate r addr reg w n s) := by
  unfold violate; dsimp only; split <;> rfl

theorem noteCorrection_reported (r : Requester) (k b y : Nat) (s : State) : Reported s (noteCorrection r k b y s) := rfl

theorem noteUncorrectable_reported (r : Requester) (k y : Nat) (s : State) : Reported s (noteUncorrectable r k y s) :=
  Reported.trans (t := { s with
    memCtl.uncorr := satAdd 65535 s.memCtl.uncorr 1
    memCtl.lastUncorr := keyAddr k
    memCtl.lastUncorrInfo := BitVec.ofNat 32 (r.num ||| at_ (keyMem k).1 8 4 ||| at_ (b2n (s.rowCol k)) 12 1 ||| at_ y 16 16) })
    rfl (raiseAlarm_reported ..)

theorem fetchStored_reported (k : Nat) (s : State) : Reported s (fetchStored k s).1 := by
  unfold fetchStored; split <;> rfl

theorem readPlain_reported (r : Requester) (k : Nat) (s : State) : Reported s (readPlain r k s).1 := by
  have h := fetchStored_reported k s
  unfold readPlain
  dsimp only
  split
  · exact h
  · exact h.trans (noteCorrection_reported ..)
  · exact h.trans rfl
  · exact h.trans (noteUncorrectable_reported ..)

theorem storeWord_reported (k : Nat) (st : Stored) (s : State) : Reported s (storeWord k st s) := rfl

theorem storeWhole_reported (k : Nat) (st : Stored) (s : State) : Reported s (storeWhole k st s) := by
  unfold storeWhole; dsimp only; split
  · split <;> rfl
  · rfl

theorem writeWord_reported (k : Nat) (d : Word) (s : State) : Reported s (writeWord k d s) := storeWhole_reported ..

theorem writePoison_reported (k : Nat) (s : State) : Reported s (writePoison k s) := storeWhole_reported ..

theorem writeGot_reported (k : Nat) (g : Got) (s : State) : Reported s (writeGot k g s) := by
  unfold writeGot; split
  · exact writePoison_reported ..
  · exact writeWord_reported ..

theorem writeGots_reported (k : Nat) (gs : List Got) (s : State) : Reported s (writeGots k gs s) := by
  induction gs generalizing k s with
  | nil => exact Reported.refl s
  | cons g t ih => exact (writeGot_reported k g s).trans (ih _ _)

theorem writeWords_reported (k : Nat) (ws : List Word) (s : State) : Reported s (writeWords k ws s) := by
  induction ws generalizing k s with
  | nil => exact Reported.refl s
  | cons w t ih => exact (writeWord_reported k w s).trans (ih _ _)

theorem flushEntry_reported (e : MergeEntry) (s : State) : Reported s (flushEntry e s) := by
  have h := readPlain_reported { num := 0 } e.word s
  unfold flushEntry
  dsimp only
  split
  · exact h.trans ((memCtl_reported _ _).trans ((memCtl_reported _ _).trans (violate_reported ..)))
  · exact h.trans ((memCtl_reported _ _).trans ((memCtl_reported _ _).trans (writeWord_reported ..)))

theorem flushWord_reported (k : Nat) (s : State) : Reported s (flushWord k s) := by
  unfold flushWord; split
  · exact flushEntry_reported ..
  · exact Reported.refl s

theorem readWord_reported (r : Requester) (k : Nat) (s : State) : Reported s (readWord r k s).1 :=
  (flushWord_reported k s).trans (readPlain_reported ..)

theorem readWords_reported (r : Requester) (k n : Nat) (s : State) : Reported s (readWords r k n s).1 := by
  induction n generalizing k s with
  | zero => exact Reported.refl s
  | succ n ih => exact (readWord_reported r k s).trans (ih (k + 1) _)

theorem pushCq_reported (w : Word) (s : State) : Reported s (pushCq w s) := by
  unfold pushCq; dsimp only; split
  · rfl
  · exact (writeWord_reported _ _ s).trans rfl

theorem pushEq_reported (w : Word) (s : State) : Reported s (pushEq w s) := by
  unfold pushEq; dsimp only; split
  · rfl
  · exact (writeWord_reported _ _ s).trans rfl

theorem writeEvent_reported (e : Event) (s : State) : Reported s (writeEvent e s) := pushEq_reported ..

theorem writeCompletion_reported (c : Completion) (s : State) : Reported s (writeCompletion c s) := pushCq_reported ..

/-- A mailbox completion changes, beside reports, the mailbox alone: its result, BUSY and DONE (R422). -/
theorem completeMailbox_reported (n : Nat) (c : Completion) (s : State) :
    Reported { s with mbx := upd s.mbx n fun b => { b with result := c.word s.gcnt, busy := false, done := true, started := false } }
      (completeMailbox n c s) := by
  have h := pushCq_reported (c.word s.gcnt) { s with mbx := upd s.mbx n fun b => { b with result := c.word s.gcnt } }
  unfold completeMailbox
  dsimp only [dueVector]
  unfold Reported at *
  rw [h]
  simp [upd, List.modify_modify_eq, Function.comp_def]

end Sys2Proof.Machine
end

