-- ==== Sys2Proof/Laws/Mailbox.lean ====
section
/-!
SUPPORT. What the frame around a command does, and what the doorbell of a mailbox at rest does.
-/

namespace Sys2Proof.Machine

open Sys2Proof

/-! ## The frame -/

/-- No disarm runs its course in a quiet state. -/
theorem disarmed_quiet {s : State} (h : s.quiet = true) : s.disarmed? = none := by
  unfold State.disarmed? State.activeJob
  unfold State.quiet at h
  rw [List.all_eq_true] at h
  split
  · rename_i slot j hj
    obtain ⟨i, _, hi⟩ := List.exists_of_findSome?_eq_some hj
    split at hi
    · rename_i x hx
      split at hi
      · simp at hi
      · simp only [Option.some.injEq, Prod.mk.injEq] at hi
        obtain ⟨rfl, rfl⟩ := hi
        have hm : some x ∈ s.jobs := by
          unfold nth at hx
          rw [List.getD_eq_getElem?_getD] at hx
          cases hg : s.jobs[i]? with
          | none => simp [hg] at hx
          | some y => simp [hg] at hx; subst hx; exact List.mem_of_getElem? hg
        have := h _ hm
        simp at this
        simp [this]
    · simp at hi
  · rfl

/-- In a quiet state nothing settles. -/
theorem settle_quiet {s : State} (h : s.quiet = true) : settle s = s := by simp [settle, disarmed_quiet h]

/-- The frame around a quiet state: queue, grade, board position, Global Counter and Fuse Map are those before. -/
theorem settled_quiet {s t : State} (h : t.quiet = true) :
    settled s t = { t with pending := s.pending, grade := s.grade, boardPos := s.boardPos, gcnt := s.gcnt, lcc.fuses := s.lcc.fuses } := by
  simp [settled, settle_quiet h]

theorem onDevice_awake {f : State → State} {s : State} (h : s.awake = true) : onDevice f s = .next (settled s (f s)) := by
  simp [onDevice, h]

theorem onDevice_off {f : State → State} {s : State} (h : s.awake = false) : onDevice f s = .next s := by simp [onDevice, h]

theorem onCount_due {p : Nat} {f : State → State} {s : State} (h : s.awake = true) (hp : s.now % p = 0) :
    onCount p f s = .next (settled s (f s)) := by simp [onCount, onDevice, h, hp]

theorem fromHost_reaches {f : State → State} {s : State} (h : s.hostReaches = true) : fromHost f s = .next (settled s (f s)) := by
  simp [fromHost, h]

/-- An operation on its RUNNING item: what it leaves within its reach, and its result. -/
theorem onItem_running {id op : Nat} {r : Reach} {f : Item → Job → State → State × Option Result} {s u : State} {it : Item} {j : Job}
    {x : Option Result} (h : s.awake = true) (hr : s.runningItem id op = some (it, j)) (hf : f it j s = (u, x)) :
    onItem id op r f s = .next (settled s (match x with
      | some y => setResult id y (within r s u)
      | none => within r s u)) := by
  unfold onItem
  rw [onDevice_awake h]
  unfold runOp reaching
  simp only [hr, hf]
  cases x <;> rfl

/-! ## A mailbox at rest -/

/-- The box of a mailbox whose entry was changed. -/
theorem nth_upd_self {α : Type} (l : List α) (n : Nat) (f : α → α) (d : α) (h : n < l.length) : nth (upd l n f) n d = f (nth l n d) := by
  simp [nth, upd, List.getD_eq_getElem?_getD, h]

/-- An opcode that is known is an entry of the catalogue. -/
theorem known_opcodeOf {s : State} {code : Nat} {o : Opcode} (h : s.known code = some o) : opcodeOf code = some o := by
  unfold State.known at h; split at h
  · simp at h
  · exact h

/-- Where commands are served no update is in progress (R433). -/
theorem serves_steady {s : State} (h : s.serves = true) : (s.fw.stage == .updating || s.fw.stage == .loading) = false := by
  unfold State.serves at h; revert h; cases s.fw.stage <;> simp

/-- Where no command waits, a doorbell meets no JOB_ARM (R489). -/
theorem metArms_none {s : State} (h : s.accepted = []) (n : Nat) (op : BitVec 16) : s.metArms n op = [] := by
  unfold State.metArms State.waitingArms
  rw [h]
  split <;> simp

/-- The doorbell of a mailbox at rest runs its command at once (R420, R421). -/
theorem doorbell_takes {s : State} {n code : Nat} {seq : BitVec 16} (h : s.takes n code = true) (hc : code < 65536) :
    doorbell n (BitVec.ofNat 16 code) seq s =
      (match runCommand n code (s.arguments n) (s.issued n code seq) with
       | (t, some c) => completeMailbox n c t
       | (t, none) => if (t.box n).immediate then t else { t with serialBusy := some n }) := by
  unfold State.takes at h
  rw [Bool.and_eq_true] at h
  obtain ⟨hr, h⟩ := h
  rcases hk : s.known code with _ | o
  · simp [hk] at h
  simp only [hk] at h
  simp only [State.atRest, Bool.and_eq_true, decide_eq_true_eq, Bool.not_eq_true', List.isEmpty_iff, Option.isNone_iff_eq_none] at hr
  obtain ⟨⟨⟨⟨⟨⟨hh, hn⟩, hb⟩, ha⟩, hs⟩, hv⟩, hat⟩ := hr
  have hup : (s.fw.stage == .updating || s.fw.stage == .loading) = false := serves_steady hv
  have hcode : (BitVec.ofNat 16 code).toNat = code := by simp [BitVec.toNat_ofNat, Nat.mod_eq_of_lt hc]
  have hbox : ∀ f : Mailbox → Mailbox, nth (upd s.mbx n f) n {} = f (nth s.mbx n {}) := fun f => nth_upd_self _ _ _ _ hn
  unfold doorbell
  simp only [hh, Bool.not_true, Bool.false_eq_true, if_false, hb]
  have hacc : accept n (BitVec.ofNat 16 code) seq s =
      { s with accepted := [n], mbx := upd s.mbx n fun b =>
          { b with busy := true, immediate := o.immediate, seq := seq, opcode := BitVec.ofNat 16 code, started := false, waited := false, met := false } } := by
    unfold accept; simp only [hcode, hk, ha, hup, List.nil_append, metArms_none ha, List.foldl_nil, List.isEmpty_nil, Bool.not_true]
  rw [hacc]
  unfold serve
  simp only [List.length_cons, List.length_nil]
  unfold pump
  have hsv : ∀ x y, State.serves { s with accepted := x, mbx := y } = true := fun _ _ => hv
  have hnext : State.nextCommand { s with accepted := [n], mbx := upd s.mbx n fun b =>
      { b with busy := true, immediate := o.immediate, seq := seq, opcode := BitVec.ofNat 16 code, started := false, waited := false, met := false } } = some n := by
    have hw : ∀ x y m, State.attestWaits { s with accepted := x, mbx := y } m = false := fun x y m => by
      have : State.attests { s with accepted := x, mbx := y } = true := hat
      simp [State.attestWaits, this]
    unfold State.nextCommand
    rw [hsv]
    simp only [hw, Bool.not_true, Bool.false_eq_true, if_false, Bool.not_false, List.filter_cons, List.filter_nil, List.find?_cons, List.find?_nil,
      State.box, hbox, if_true]
    cases o.immediate <;> simp [hs]
  rw [hnext]
  have hstart : startCommand n { s with accepted := [n], mbx := upd s.mbx n fun b =>
      { b with busy := true, immediate := o.immediate, seq := seq, opcode := BitVec.ofNat 16 code, started := false, waited := false, met := false } } =
      runCommand n code (s.arguments n) (s.issued n code seq) := by
    unfold startCommand
    simp only [State.box, hbox, hcode]
    have hk' : ∀ x y, State.known { s with accepted := x, mbx := y } code = some o := fun _ _ => hk
    rw [hk']
    have hd' : argsDefined o ((nth s.mbx n {}).args.map (·.toNat)) = true := h
    simp only [hd', Bool.not_true, Bool.false_and, Bool.false_eq_true, if_false]
    unfold State.arguments State.box State.issued
    rw [known_opcodeOf hk]
    congr 1
    by_cases hp : (o.arithmetic && s.power == .idle) = true
    · simp only [hp, if_true]; simp [upd, List.modify_modify_eq, Function.comp_def, ha]
    · simp only [hp]; simp [upd, List.modify_modify_eq, Function.comp_def, ha]
  simp only [hstart]
  rcases runCommand n code (s.arguments n) (s.issued n code seq) with ⟨t, _ | c⟩ <;> simp [pump]

/-- A mailbox at rest is one that the host reaches. -/
theorem takes_reaches {s : State} {n code : Nat} (h : s.takes n code = true) : s.hostReaches = true := by
  simp only [State.takes, State.atRest, Bool.and_eq_true] at h; exact h.1.1.1.1.1.1.1

/-- A mailbox row whose command completes at once. -/
theorem row_some {n : Fin 4} {code : Nat} {q : BitVec 16} {s t : State} {c : Completion} {i : Instr}
    (hi : exec i s = fromHost (doorbell n (BitVec.ofNat 16 code) q) s) (h : s.takes n code = true) (hc : code < 65536)
    (hr : runCommand n code (s.arguments n) (s.issued n code q) = (t, some c)) : s.completes i n c t := by
  unfold State.completes
  rw [hi, fromHost_reaches (takes_reaches h), doorbell_takes h hc, hr]
/-- A mailbox row whose command goes on. -/
theorem row_none {n : Fin 4} {code : Nat} {q : BitVec 16} {s t : State} {i : Instr}
    (hi : exec i s = fromHost (doorbell n (BitVec.ofNat 16 code) q) s) (h : s.takes n code = true) (hc : code < 65536)
    (hr : runCommand n code (s.arguments n) (s.issued n code q) = (t, none)) : exec i s = .next (settled s (if (t.box n).immediate then t else { t with serialBusy := some n.val })) := by
  rw [hi, fromHost_reaches (takes_reaches h), doorbell_takes h hc, hr]

theorem lpFind_of {s t : State} (h : t.devBlocks = s.devBlocks) (n p i : Nat) : lpFind t n p i = lpFind s n p i := by
  induction n generalizing p i with
  | zero => rfl
  | succ n ih =>
    have hl : t.lpCode p = s.lpCode p := by simp only [State.lpCode, State.devField, State.devBlock, h]
    unfold lpFind; simp only [hl, ih]
theorem rowCol_of {s t : State} (h : t.devBlocks = s.devBlocks) (h2 : t.memCtl.regions = s.memCtl.regions) (k : Nat) : t.rowCol k = s.rowCol k := by
  simp only [State.rowCol, State.lpRegion, lpFind_of h, h2, State.lpCode, State.devField, State.devBlock, h]


end Sys2Proof.Machine
end

