-- ==== Sys2Proof/Laws/Command.lean ====
section
/-!
SUPPORT. The frame of every command: what stands under it, and that it has no effect while the compute die is Off.
-/

namespace Sys2Proof.Machine

open Sys2Proof

/-- A command answers a next state that keeps the queue, the grade, the board position, the Global Counter and the Fuse Map. -/
def Kept (s : State) (o : Outcome) : Prop :=
  ∃ t, o = .next t ∧ t.pending = s.pending ∧ t.grade = s.grade ∧ t.boardPos = s.boardPos ∧ t.gcnt = s.gcnt ∧ t.lcc.fuses = s.lcc.fuses

theorem onDevice_kept (f : State → State) (s : State) : Kept s (onDevice f s) := by
  unfold onDevice; split
  · exact ⟨_, rfl, rfl, rfl, rfl, rfl, rfl⟩
  · exact ⟨_, rfl, rfl, rfl, rfl, rfl, rfl⟩

theorem fromHost_kept (f : State → State) (s : State) : Kept s (fromHost f s) := by
  unfold fromHost; split
  · exact ⟨_, rfl, rfl, rfl, rfl, rfl, rfl⟩
  · split
    · exact ⟨_, rfl, rfl, rfl, rfl, rfl, rfl⟩
    · exact ⟨_, rfl, rfl, rfl, rfl, rfl, rfl⟩

theorem onCount_kept (p : Nat) (f : State → State) (s : State) : Kept s (onCount p f s) := onDevice_kept ..

theorem onItem_kept (id op : Nat) (r : Reach) (f : Item → Job → State → State × Option Result) (s : State) : Kept s (onItem id op r f s) :=
  onDevice_kept ..

theorem onForm_kept (id op : Nat) (p : Entry → Bool) (r : Reach) (f : Item → Job → State → State × Option Result) (s : State) :
    Kept s (onForm id op p r f s) :=
  onDevice_kept ..

theorem fromHost_off (f : State → State) {s : State} (h : s.awake = false) : fromHost f s = .next s := by
  simp [fromHost, State.hostReaches, State.awake, setUp] at h ⊢; simp [h]

/-- The commands that fuses, the Global Counter or the queue's state may change under. -/
def specialCommand : Instr → Bool
  | .syncEdge | .wake _ _ | .porstAssert | .powerOffSwitch | .powerRemoval _ | .thimbleWipeDone => true
  | _ => false


theorem execJobDefine_kept (s : State) (a0) (a1) : Kept s (execJobDefine a0 a1 s) := by
  unfold execJobDefine; exact fromHost_kept ..
theorem execJobDefine_off {s : State} (a0) (a1) (h : s.awake = false) : execJobDefine a0 a1 s = .next s := by
  unfold execJobDefine; exact fromHost_off _ h
theorem execJobDelete_kept (s : State) (a0) (a1) : Kept s (execJobDelete a0 a1 s) := by
  unfold execJobDelete; exact fromHost_kept ..
theorem execJobDelete_off {s : State} (a0) (a1) (h : s.awake = false) : execJobDelete a0 a1 s = .next s := by
  unfold execJobDelete; exact fromHost_off _ h
theorem execTableLoad_kept (s : State) (a0) (a1) : Kept s (execTableLoad a0 a1 s) := by
  unfold execTableLoad; exact fromHost_kept ..
theorem execTableLoad_off {s : State} (a0) (a1) (h : s.awake = false) : execTableLoad a0 a1 s = .next s := by
  unfold execTableLoad; exact fromHost_off _ h
theorem execListLoad_kept (s : State) (a0) (a1) : Kept s (execListLoad a0 a1 s) := by
  unfold execListLoad; exact fromHost_kept ..
theorem execListLoad_off {s : State} (a0) (a1) (h : s.awake = false) : execListLoad a0 a1 s = .next s := by
  unfold execListLoad; exact fromHost_off _ h
theorem execConfigWrite_kept (s : State) (a0) (a1) : Kept s (execConfigWrite a0 a1 s) := by
  unfold execConfigWrite; exact fromHost_kept ..
theorem execConfigWrite_off {s : State} (a0) (a1) (h : s.awake = false) : execConfigWrite a0 a1 s = .next s := by
  unfold execConfigWrite; exact fromHost_off _ h
theorem execJobArm_kept (s : State) (a0) (a1) : Kept s (execJobArm a0 a1 s) := by
  unfold execJobArm; exact fromHost_kept ..
theorem execJobArm_off {s : State} (a0) (a1) (h : s.awake = false) : execJobArm a0 a1 s = .next s := by
  unfold execJobArm; exact fromHost_off _ h
theorem execJobDisarm_kept (s : State) (a0) (a1) : Kept s (execJobDisarm a0 a1 s) := by
  unfold execJobDisarm; exact fromHost_kept ..
theorem execJobDisarm_off {s : State} (a0) (a1) (h : s.awake = false) : execJobDisarm a0 a1 s = .next s := by
  unfold execJobDisarm; exact fromHost_off _ h
theorem execChannelGoal_kept (s : State) (a0) (a1) : Kept s (execChannelGoal a0 a1 s) := by
  unfold execChannelGoal; exact fromHost_kept ..
theorem execChannelGoal_off {s : State} (a0) (a1) (h : s.awake = false) : execChannelGoal a0 a1 s = .next s := by
  unfold execChannelGoal; exact fromHost_off _ h
theorem execServicePriority_kept (s : State) (a0) (a1) : Kept s (execServicePriority a0 a1 s) := by
  unfold execServicePriority; exact fromHost_kept ..
theorem execServicePriority_off {s : State} (a0) (a1) (h : s.awake = false) : execServicePriority a0 a1 s = .next s := by
  unfold execServicePriority; exact fromHost_off _ h
theorem execPatternInstall_kept (s : State) (a0) (a1) : Kept s (execPatternInstall a0 a1 s) := by
  unfold execPatternInstall; exact fromHost_kept ..
theorem execPatternInstall_off {s : State} (a0) (a1) (h : s.awake = false) : execPatternInstall a0 a1 s = .next s := by
  unfold execPatternInstall; exact fromHost_off _ h
theorem execPatternRetire_kept (s : State) (a0) (a1) : Kept s (execPatternRetire a0 a1 s) := by
  unfold execPatternRetire; exact fromHost_kept ..
theorem execPatternRetire_off {s : State} (a0) (a1) (h : s.awake = false) : execPatternRetire a0 a1 s = .next s := by
  unfold execPatternRetire; exact fromHost_off _ h
theorem execNetworkLoad_kept (s : State) (a0) (a1) : Kept s (execNetworkLoad a0 a1 s) := by
  unfold execNetworkLoad; exact fromHost_kept ..
theorem execNetworkLoad_off {s : State} (a0) (a1) (h : s.awake = false) : execNetworkLoad a0 a1 s = .next s := by
  unfold execNetworkLoad; exact fromHost_off _ h
theorem execSafetyResume_kept (s : State) (a0) (a1) : Kept s (execSafetyResume a0 a1 s) := by
  unfold execSafetyResume; exact fromHost_kept ..
theorem execSafetyResume_off {s : State} (a0) (a1) (h : s.awake = false) : execSafetyResume a0 a1 s = .next s := by
  unfold execSafetyResume; exact fromHost_off _ h
theorem execMemoryMode_kept (s : State) (a0) (a1) : Kept s (execMemoryMode a0 a1 s) := by
  unfold execMemoryMode; exact fromHost_kept ..
theorem execMemoryMode_off {s : State} (a0) (a1) (h : s.awake = false) : execMemoryMode a0 a1 s = .next s := by
  unfold execMemoryMode; exact fromHost_off _ h
theorem execMemFlipArm_kept (s : State) (a0) (a1) : Kept s (execMemFlipArm a0 a1 s) := by
  unfold execMemFlipArm; exact fromHost_kept ..
theorem execMemFlipArm_off {s : State} (a0) (a1) (h : s.awake = false) : execMemFlipArm a0 a1 s = .next s := by
  unfold execMemFlipArm; exact fromHost_off _ h
theorem execMemRepair_kept (s : State) (a0) (a1) : Kept s (execMemRepair a0 a1 s) := by
  unfold execMemRepair; exact fromHost_kept ..
theorem execMemRepair_off {s : State} (a0) (a1) (h : s.awake = false) : execMemRepair a0 a1 s = .next s := by
  unfold execMemRepair; exact fromHost_off _ h
theorem execMoveEngineResume_kept (s : State) (a0) (a1) : Kept s (execMoveEngineResume a0 a1 s) := by
  unfold execMoveEngineResume; exact fromHost_kept ..
theorem execMoveEngineResume_off {s : State} (a0) (a1) (h : s.awake = false) : execMoveEngineResume a0 a1 s = .next s := by
  unfold execMoveEngineResume; exact fromHost_off _ h
theorem execLineReference_kept (s : State) (a0) (a1) : Kept s (execLineReference a0 a1 s) := by
  unfold execLineReference; exact fromHost_kept ..
theorem execLineReference_off {s : State} (a0) (a1) (h : s.awake = false) : execLineReference a0 a1 s = .next s := by
  unfold execLineReference; exact fromHost_off _ h
theorem execSyncAlign_kept (s : State) (a0) (a1) : Kept s (execSyncAlign a0 a1 s) := by
  unfold execSyncAlign; exact fromHost_kept ..
theorem execSyncAlign_off {s : State} (a0) (a1) (h : s.awake = false) : execSyncAlign a0 a1 s = .next s := by
  unfold execSyncAlign; exact fromHost_off _ h
theorem execFwLoad_kept (s : State) (a0) (a1) : Kept s (execFwLoad a0 a1 s) := by
  unfold execFwLoad; exact fromHost_kept ..
theorem execFwLoad_off {s : State} (a0) (a1) (h : s.awake = false) : execFwLoad a0 a1 s = .next s := by
  unfold execFwLoad; exact fromHost_off _ h
theorem execTraceControl_kept (s : State) (a0) (a1) : Kept s (execTraceControl a0 a1 s) := by
  unfold execTraceControl; exact fromHost_kept ..
theorem execTraceControl_off {s : State} (a0) (a1) (h : s.awake = false) : execTraceControl a0 a1 s = .next s := by
  unfold execTraceControl; exact fromHost_off _ h
theorem execAttest_kept (s : State) (a0) (a1) : Kept s (execAttest a0 a1 s) := by
  unfold execAttest; exact fromHost_kept ..
theorem execAttest_off {s : State} (a0) (a1) (h : s.awake = false) : execAttest a0 a1 s = .next s := by
  unfold execAttest; exact fromHost_off _ h
theorem execPowerState_kept (s : State) (a0) (a1) : Kept s (execPowerState a0 a1 s) := by
  unfold execPowerState; exact fromHost_kept ..
theorem execPowerState_off {s : State} (a0) (a1) (h : s.awake = false) : execPowerState a0 a1 s = .next s := by
  unfold execPowerState; exact fromHost_off _ h
theorem execLifecycleSet_kept (s : State) (a0) (a1) : Kept s (execLifecycleSet a0 a1 s) := by
  unfold execLifecycleSet; exact fromHost_kept ..
theorem execLifecycleSet_off {s : State} (a0) (a1) (h : s.awake = false) : execLifecycleSet a0 a1 s = .next s := by
  unfold execLifecycleSet; exact fromHost_off _ h
theorem execKeyProvision_kept (s : State) (a0) (a1) : Kept s (execKeyProvision a0 a1 s) := by
  unfold execKeyProvision; exact fromHost_kept ..
theorem execKeyProvision_off {s : State} (a0) (a1) (h : s.awake = false) : execKeyProvision a0 a1 s = .next s := by
  unfold execKeyProvision; exact fromHost_off _ h
theorem execUnknownOpcodeRefusal_kept (s : State) (a0) (a1) (a2) : Kept s (execUnknownOpcodeRefusal a0 a1 a2 s) := by
  unfold execUnknownOpcodeRefusal; exact fromHost_kept ..
theorem execUnknownOpcodeRefusal_off {s : State} (a0) (a1) (a2) (h : s.awake = false) : execUnknownOpcodeRefusal a0 a1 a2 s = .next s := by
  unfold execUnknownOpcodeRefusal; exact fromHost_off _ h
theorem execDoorbellCollision_kept (s : State) (a0) (a1) : Kept s (execDoorbellCollision a0 a1 s) := by
  unfold execDoorbellCollision; exact fromHost_kept ..
theorem execDoorbellCollision_off {s : State} (a0) (a1) (h : s.awake = false) : execDoorbellCollision a0 a1 s = .next s := by
  unfold execDoorbellCollision; exact fromHost_off _ h
theorem execMbxSqTailWrite_kept (s : State) (a0) : Kept s (execMbxSqTailWrite a0 s) := by
  unfold execMbxSqTailWrite; exact fromHost_kept ..
theorem execMbxSqTailWrite_off {s : State} (a0) (h : s.awake = false) : execMbxSqTailWrite a0 s = .next s := by
  unfold execMbxSqTailWrite; exact fromHost_off _ h
theorem execRingHeadWrite_kept (s : State) (a0) (a1) : Kept s (execRingHeadWrite a0 a1 s) := by
  unfold execRingHeadWrite; exact fromHost_kept ..
theorem execRingHeadWrite_off {s : State} (a0) (a1) (h : s.awake = false) : execRingHeadWrite a0 a1 s = .next s := by
  unfold execRingHeadWrite; exact fromHost_off _ h
theorem execAlarmStickyClear_kept (s : State) (a0) (a1) : Kept s (execAlarmStickyClear a0 a1 s) := by
  unfold execAlarmStickyClear; exact fromHost_kept ..
theorem execAlarmStickyClear_off {s : State} (a0) (a1) (h : s.awake = false) : execAlarmStickyClear a0 a1 s = .next s := by
  unfold execAlarmStickyClear; exact fromHost_off _ h
theorem execFirstFaultUnfreeze_kept (s : State) (a0) : Kept s (execFirstFaultUnfreeze a0 s) := by
  unfold execFirstFaultUnfreeze; exact fromHost_kept ..
theorem execFirstFaultUnfreeze_off {s : State} (a0) (h : s.awake = false) : execFirstFaultUnfreeze a0 s = .next s := by
  unfold execFirstFaultUnfreeze; exact fromHost_off _ h
theorem execRegisterWrite_kept (s : State) (a0) (a1) (a2) : Kept s (execRegisterWrite a0 a1 a2 s) := by
  unfold execRegisterWrite; exact fromHost_kept ..
theorem execRegisterWrite_off {s : State} (a0) (a1) (a2) (h : s.awake = false) : execRegisterWrite a0 a1 a2 s = .next s := by
  unfold execRegisterWrite; exact fromHost_off _ h
theorem execRegisterLoRead_kept (s : State) (a0) (a1) : Kept s (execRegisterLoRead a0 a1 s) := by
  unfold execRegisterLoRead; exact fromHost_kept ..
theorem execRegisterLoRead_off {s : State} (a0) (a1) (h : s.awake = false) : execRegisterLoRead a0 a1 s = .next s := by
  unfold execRegisterLoRead; exact fromHost_off _ h
theorem execBar2Read_kept (s : State) (a0) (a1) : Kept s (execBar2Read a0 a1 s) := by
  unfold execBar2Read; exact fromHost_kept ..
theorem execBar2Read_off {s : State} (a0) (a1) (h : s.awake = false) : execBar2Read a0 a1 s = .next s := by
  unfold execBar2Read; exact fromHost_off _ h
theorem execBar2Write_kept (s : State) (a0) (a1) : Kept s (execBar2Write a0 a1 s) := by
  unfold execBar2Write; exact fromHost_kept ..
theorem execBar2Write_off {s : State} (a0) (a1) (h : s.awake = false) : execBar2Write a0 a1 s = .next s := by
  unfold execBar2Write; exact fromHost_off _ h
theorem execSubmissionEntry_kept (s : State) : Kept s (execSubmissionEntry s) := by
  unfold execSubmissionEntry; exact onDevice_kept ..
theorem execSubmissionEntry_off {s : State} (h : s.awake = false) : execSubmissionEntry s = .next s := by
  unfold execSubmissionEntry; exact onDevice_off h
theorem execFunctionLevelReset_kept (s : State) : Kept s (execFunctionLevelReset s) := by
  unfold execFunctionLevelReset; exact onDevice_kept ..
theorem execFunctionLevelReset_off {s : State} (h : s.awake = false) : execFunctionLevelReset s = .next s := by
  unfold execFunctionLevelReset; exact onDevice_off h
theorem execD3hotEntry_kept (s : State) : Kept s (execD3hotEntry s) := by
  unfold execD3hotEntry; exact onDevice_kept ..
theorem execD3hotEntry_off {s : State} (h : s.awake = false) : execD3hotEntry s = .next s := by
  unfold execD3hotEntry; exact onDevice_off h
theorem execMsiXMessage_kept (s : State) (a0) : Kept s (execMsiXMessage a0 s) := by
  unfold execMsiXMessage; exact onDevice_kept ..
theorem execMsiXMessage_off {s : State} (a0) (h : s.awake = false) : execMsiXMessage a0 s = .next s := by
  unfold execMsiXMessage; exact onDevice_off h
theorem execDieLinkFailure_kept (s : State) (a0) : Kept s (execDieLinkFailure a0 s) := by
  unfold execDieLinkFailure; exact onDevice_kept ..
theorem execDieLinkFailure_off {s : State} (a0) (h : s.awake = false) : execDieLinkFailure a0 s = .next s := by
  unfold execDieLinkFailure; exact onDevice_off h
theorem execDieLinkRetrain_kept (s : State) (a0) : Kept s (execDieLinkRetrain a0 s) := by
  unfold execDieLinkRetrain; exact onDevice_kept ..
theorem execDieLinkRetrain_off {s : State} (a0) (h : s.awake = false) : execDieLinkRetrain a0 s = .next s := by
  unfold execDieLinkRetrain; exact onDevice_off h
theorem execEncoderCount_kept (s : State) (a0) (a1) (a2) : Kept s (execEncoderCount a0 a1 a2 s) := by
  unfold execEncoderCount; exact onDevice_kept ..
theorem execEncoderCount_off {s : State} (a0) (a1) (a2) (h : s.awake = false) : execEncoderCount a0 a1 a2 s = .next s := by
  unfold execEncoderCount; exact onDevice_off h
theorem execEncoderZEdge_kept (s : State) (a0) : Kept s (execEncoderZEdge a0 s) := by
  unfold execEncoderZEdge; exact onDevice_kept ..
theorem execEncoderZEdge_off {s : State} (a0) (h : s.awake = false) : execEncoderZEdge a0 s = .next s := by
  unfold execEncoderZEdge; exact onDevice_off h
theorem execEncoderFaultInput_kept (s : State) (a0) : Kept s (execEncoderFaultInput a0 s) := by
  unfold execEncoderFaultInput; exact onDevice_kept ..
theorem execEncoderFaultInput_off {s : State} (a0) (h : s.awake = false) : execEncoderFaultInput a0 s = .next s := by
  unfold execEncoderFaultInput; exact onDevice_off h
theorem execEncoderCapture_kept (s : State) : Kept s (execEncoderCapture s) := by
  unfold execEncoderCapture; exact onDevice_kept ..
theorem execEncoderCapture_off {s : State} (h : s.awake = false) : execEncoderCapture s = .next s := by
  unfold execEncoderCapture; exact onDevice_off h
theorem execEncoderRedundantCompare_kept (s : State) : Kept s (execEncoderRedundantCompare s) := by
  unfold execEncoderRedundantCompare; exact onCount_kept ..
theorem execEncoderRedundantCompare_off {s : State} (h : s.awake = false) : execEncoderRedundantCompare s = .next s := by
  unfold execEncoderRedundantCompare; exact onDevice_off h
theorem execLineStateEvaluation_kept (s : State) : Kept s (execLineStateEvaluation s) := by
  unfold execLineStateEvaluation; exact onCount_kept ..
theorem execLineStateEvaluation_off {s : State} (h : s.awake = false) : execLineStateEvaluation s = .next s := by
  unfold execLineStateEvaluation; exact onDevice_off h
theorem execVirtualAdvance_kept (s : State) : Kept s (execVirtualAdvance s) := by
  unfold execVirtualAdvance; exact onCount_kept ..
theorem execVirtualAdvance_off {s : State} (h : s.awake = false) : execVirtualAdvance s = .next s := by
  unfold execVirtualAdvance; exact onDevice_off h
theorem execLineTick_kept (s : State) : Kept s (execLineTick s) := by
  unfold execLineTick; exact onDevice_kept ..
theorem execLineTick_off {s : State} (h : s.awake = false) : execLineTick s = .next s := by
  unfold execLineTick; exact onDevice_off h
theorem execLineMessageSample_kept (s : State) : Kept s (execLineMessageSample s) := by
  unfold execLineMessageSample; exact onCount_kept ..
theorem execLineMessageSample_off {s : State} (h : s.awake = false) : execLineMessageSample s = .next s := by
  unfold execLineMessageSample; exact onDevice_off h
theorem execLineMessageReceive_kept (s : State) (a0) (a1) (a2) (a3) (a4) (a5) (a6) : Kept s (execLineMessageReceive a0 a1 a2 a3 a4 a5 a6 s) := by
  unfold execLineMessageReceive; exact onDevice_kept ..
theorem execLineMessageReceive_off {s : State} (a0) (a1) (a2) (a3) (a4) (a5) (a6) (h : s.awake = false) : execLineMessageReceive a0 a1 a2 a3 a4 a5 a6 s = .next s := by
  unfold execLineMessageReceive; exact onDevice_off h
theorem execLineMessageApply_kept (s : State) : Kept s (execLineMessageApply s) := by
  unfold execLineMessageApply; exact onDevice_kept ..
theorem execLineMessageApply_off {s : State} (h : s.awake = false) : execLineMessageApply s = .next s := by
  unfold execLineMessageApply; exact onDevice_off h
theorem execLineMsgTimeout_kept (s : State) : Kept s (execLineMsgTimeout s) := by
  unfold execLineMsgTimeout; exact onDevice_kept ..
theorem execLineMsgTimeout_off {s : State} (h : s.awake = false) : execLineMsgTimeout s = .next s := by
  unfold execLineMsgTimeout; exact onDevice_off h
theorem execSyncEdge_off {s : State} (h : s.awake = false) : execSyncEdge s = .next s := by
  unfold execSyncEdge; simp [h]
theorem execSyncTimeout_kept (s : State) : Kept s (execSyncTimeout s) := by
  unfold execSyncTimeout; exact onDevice_kept ..
theorem execSyncTimeout_off {s : State} (h : s.awake = false) : execSyncTimeout s = .next s := by
  unfold execSyncTimeout; exact onDevice_off h
theorem execJobLaunch_kept (s : State) : Kept s (execJobLaunch s) := by
  unfold execJobLaunch; exact onDevice_kept ..
theorem execJobLaunch_off {s : State} (h : s.awake = false) : execJobLaunch s = .next s := by
  unfold execJobLaunch; exact onDevice_off h
theorem execListTriggering_kept (s : State) : Kept s (execListTriggering s) := by
  unfold execListTriggering; exact onDevice_kept ..
theorem execListTriggering_off {s : State} (h : s.awake = false) : execListTriggering s = .next s := by
  unfold execListTriggering; exact onDevice_off h
theorem execSignalApply_kept (s : State) : Kept s (execSignalApply s) := by
  unfold execSignalApply; exact onDevice_kept ..
theorem execSignalApply_off {s : State} (h : s.awake = false) : execSignalApply s = .next s := by
  unfold execSignalApply; exact onDevice_off h
theorem execWaitLimitExpiry_kept (s : State) (a0) : Kept s (execWaitLimitExpiry a0 s) := by
  unfold execWaitLimitExpiry; exact onDevice_kept ..
theorem execWaitLimitExpiry_off {s : State} (a0) (h : s.awake = false) : execWaitLimitExpiry a0 s = .next s := by
  unfold execWaitLimitExpiry; exact onDevice_off h
theorem execEngineGet_kept (s : State) (a0) : Kept s (execEngineGet a0 s) := by
  unfold execEngineGet; exact onDevice_kept ..
theorem execEngineGet_off {s : State} (a0) (h : s.awake = false) : execEngineGet a0 s = .next s := by
  unfold execEngineGet; exact onDevice_off h
theorem execItemCompletion_kept (s : State) (a0) : Kept s (execItemCompletion a0 s) := by
  unfold execItemCompletion; exact onDevice_kept ..
theorem execItemCompletion_off {s : State} (a0) (h : s.awake = false) : execItemCompletion a0 s = .next s := by
  unfold execItemCompletion; exact onDevice_off h
theorem execReleasedItemReady_kept (s : State) : Kept s (execReleasedItemReady s) := by
  unfold execReleasedItemReady; exact onDevice_kept ..
theorem execReleasedItemReady_off {s : State} (h : s.awake = false) : execReleasedItemReady s = .next s := by
  unfold execReleasedItemReady; exact onDevice_off h
theorem execReleaseDeadline_kept (s : State) (a0) : Kept s (execReleaseDeadline a0 s) := by
  unfold execReleaseDeadline; exact onDevice_kept ..
theorem execReleaseDeadline_off {s : State} (a0) (h : s.awake = false) : execReleaseDeadline a0 s = .next s := by
  unfold execReleaseDeadline; exact onDevice_off h
theorem execNop_kept (s : State) (a0) : Kept s (execNop a0 s) := by
  unfold execNop; exact onDevice_kept ..
theorem execNop_off {s : State} (a0) (h : s.awake = false) : execNop a0 s = .next s := by
  unfold execNop; exact onDevice_off h
theorem execJobEvent_kept (s : State) (a0) : Kept s (execJobEvent a0 s) := by
  unfold execJobEvent; exact onItem_kept ..
theorem execJobEvent_off {s : State} (a0) (h : s.awake = false) : execJobEvent a0 s = .next s := by
  unfold execJobEvent; exact onDevice_off h
theorem execSignal_kept (s : State) (a0) : Kept s (execSignal a0 s) := by
  unfold execSignal; exact onDevice_kept ..
theorem execSignal_off {s : State} (a0) (h : s.awake = false) : execSignal a0 s = .next s := by
  unfold execSignal; exact onDevice_off h
theorem execWait_kept (s : State) (a0) : Kept s (execWait a0 s) := by
  unfold execWait; exact onDevice_kept ..
theorem execWait_off {s : State} (a0) (h : s.awake = false) : execWait a0 s = .next s := by
  unfold execWait; exact onDevice_off h
theorem execDelayInsert_kept (s : State) (a0) : Kept s (execDelayInsert a0 s) := by
  unfold execDelayInsert; exact onItem_kept ..
theorem execDelayInsert_off {s : State} (a0) (h : s.awake = false) : execDelayInsert a0 s = .next s := by
  unfold execDelayInsert; exact onDevice_off h
theorem execDelayCancel_kept (s : State) (a0) : Kept s (execDelayCancel a0 s) := by
  unfold execDelayCancel; exact onItem_kept ..
theorem execDelayCancel_off {s : State} (a0) (h : s.awake = false) : execDelayCancel a0 s = .next s := by
  unfold execDelayCancel; exact onDevice_off h
theorem execEpochCommit_kept (s : State) (a0) : Kept s (execEpochCommit a0 s) := by
  unfold execEpochCommit; exact onItem_kept ..
theorem execEpochCommit_off {s : State} (a0) (h : s.awake = false) : execEpochCommit a0 s = .next s := by
  unfold execEpochCommit; exact onDevice_off h
theorem execEpochApply_kept (s : State) (a0) : Kept s (execEpochApply a0 s) := by
  unfold execEpochApply; exact onItem_kept ..
theorem execEpochApply_off {s : State} (a0) (h : s.awake = false) : execEpochApply a0 s = .next s := by
  unfold execEpochApply; exact onDevice_off h
theorem execDeltaInject_kept (s : State) (a0) : Kept s (execDeltaInject a0 s) := by
  unfold execDeltaInject; exact onItem_kept ..
theorem execDeltaInject_off {s : State} (a0) (h : s.awake = false) : execDeltaInject a0 s = .next s := by
  unfold execDeltaInject; exact onDevice_off h
theorem execEdgeRead_kept (s : State) (a0) : Kept s (execEdgeRead a0 s) := by
  unfold execEdgeRead; exact onItem_kept ..
theorem execEdgeRead_off {s : State} (a0) (h : s.awake = false) : execEdgeRead a0 s = .next s := by
  unfold execEdgeRead; exact onDevice_off h
theorem execSearch_kept (s : State) (a0) : Kept s (execSearch a0 s) := by
  unfold execSearch; exact onItem_kept ..
theorem execSearch_off {s : State} (a0) (h : s.awake = false) : execSearch a0 s = .next s := by
  unfold execSearch; exact onDevice_off h
theorem execDarn_kept (s : State) (a0) : Kept s (execDarn a0 s) := by
  unfold execDarn; exact onItem_kept ..
theorem execDarn_off {s : State} (a0) (h : s.awake = false) : execDarn a0 s = .next s := by
  unfold execDarn; exact onDevice_off h
theorem execStructureLoad_kept (s : State) (a0) : Kept s (execStructureLoad a0 s) := by
  unfold execStructureLoad; exact onItem_kept ..
theorem execStructureLoad_off {s : State} (a0) (h : s.awake = false) : execStructureLoad a0 s = .next s := by
  unfold execStructureLoad; exact onDevice_off h
theorem execEase_kept (s : State) (a0) : Kept s (execEase a0 s) := by
  unfold execEase; exact onItem_kept ..
theorem execEase_off {s : State} (a0) (h : s.awake = false) : execEase a0 s = .next s := by
  unfold execEase; exact onDevice_off h
theorem execQpSolve_kept (s : State) (a0) : Kept s (execQpSolve a0 s) := by
  unfold execQpSolve; exact onItem_kept ..
theorem execQpSolve_off {s : State} (a0) (h : s.awake = false) : execQpSolve a0 s = .next s := by
  unfold execQpSolve; exact onDevice_off h
theorem execLsqFitClearAccumulate_kept (s : State) (a0) : Kept s (execLsqFitClearAccumulate a0 s) := by
  unfold execLsqFitClearAccumulate; exact onForm_kept ..
theorem execLsqFitClearAccumulate_off {s : State} (a0) (h : s.awake = false) : execLsqFitClearAccumulate a0 s = .next s := by
  unfold execLsqFitClearAccumulate; exact onDevice_off h
theorem execLsqFitAccumulate_kept (s : State) (a0) : Kept s (execLsqFitAccumulate a0 s) := by
  unfold execLsqFitAccumulate; exact onForm_kept ..
theorem execLsqFitAccumulate_off {s : State} (a0) (h : s.awake = false) : execLsqFitAccumulate a0 s = .next s := by
  unfold execLsqFitAccumulate; exact onDevice_off h
theorem execLsqFitSolve_kept (s : State) (a0) : Kept s (execLsqFitSolve a0 s) := by
  unfold execLsqFitSolve; exact onForm_kept ..
theorem execLsqFitSolve_off {s : State} (a0) (h : s.awake = false) : execLsqFitSolve a0 s = .next s := by
  unfold execLsqFitSolve; exact onDevice_off h
theorem execNetworkSegment_kept (s : State) (a0) : Kept s (execNetworkSegment a0 s) := by
  unfold execNetworkSegment; exact onItem_kept ..
theorem execNetworkSegment_off {s : State} (a0) (h : s.awake = false) : execNetworkSegment a0 s = .next s := by
  unfold execNetworkSegment; exact onDevice_off h
theorem execMatmul_kept (s : State) (a0) : Kept s (execMatmul a0 s) := by
  unfold execMatmul; exact onItem_kept ..
theorem execMatmul_off {s : State} (a0) (h : s.awake = false) : execMatmul a0 s = .next s := by
  unfold execMatmul; exact onDevice_off h
theorem execTopk_kept (s : State) (a0) : Kept s (execTopk a0 s) := by
  unfold execTopk; exact onItem_kept ..
theorem execTopk_off {s : State} (a0) (h : s.awake = false) : execTopk a0 s = .next s := by
  unfold execTopk; exact onDevice_off h
theorem execTopkMerge_kept (s : State) (a0) : Kept s (execTopkMerge a0 s) := by
  unfold execTopkMerge; exact onItem_kept ..
theorem execTopkMerge_off {s : State} (a0) (h : s.awake = false) : execTopkMerge a0 s = .next s := by
  unfold execTopkMerge; exact onDevice_off h
theorem execFrameTake_kept (s : State) (a0) : Kept s (execFrameTake a0 s) := by
  unfold execFrameTake; exact onItem_kept ..
theorem execFrameTake_off {s : State} (a0) (h : s.awake = false) : execFrameTake a0 s = .next s := by
  unfold execFrameTake; exact onDevice_off h
theorem execFrameTakeTimeout_kept (s : State) (a0) : Kept s (execFrameTakeTimeout a0 s) := by
  unfold execFrameTakeTimeout; exact onDevice_kept ..
theorem execFrameTakeTimeout_off {s : State} (a0) (h : s.awake = false) : execFrameTakeTimeout a0 s = .next s := by
  unfold execFrameTakeTimeout; exact onDevice_off h
theorem execFrameReturn_kept (s : State) (a0) : Kept s (execFrameReturn a0 s) := by
  unfold execFrameReturn; exact onItem_kept ..
theorem execFrameReturn_off {s : State} (a0) (h : s.awake = false) : execFrameReturn a0 s = .next s := by
  unfold execFrameReturn; exact onDevice_off h
theorem execGoldenInject_kept (s : State) (a0) : Kept s (execGoldenInject a0 s) := by
  unfold execGoldenInject; exact onItem_kept ..
theorem execGoldenInject_off {s : State} (a0) (h : s.awake = false) : execGoldenInject a0 s = .next s := by
  unfold execGoldenInject; exact onDevice_off h
theorem execCheckB_kept (s : State) (a0) : Kept s (execCheckB a0 s) := by
  unfold execCheckB; exact onItem_kept ..
theorem execCheckB_off {s : State} (a0) (h : s.awake = false) : execCheckB a0 s = .next s := by
  unfold execCheckB; exact onDevice_off h
theorem execStitch_kept (s : State) (a0) : Kept s (execStitch a0 s) := by
  unfold execStitch; exact onItem_kept ..
theorem execStitch_off {s : State} (a0) (h : s.awake = false) : execStitch a0 s = .next s := by
  unfold execStitch; exact onDevice_off h
theorem execHold_kept (s : State) (a0) : Kept s (execHold a0 s) := by
  unfold execHold; exact onItem_kept ..
theorem execHold_off {s : State} (a0) (h : s.awake = false) : execHold a0 s = .next s := by
  unfold execHold; exact onDevice_off h
theorem execCopy_kept (s : State) (a0) : Kept s (execCopy a0 s) := by
  unfold execCopy; exact onItem_kept ..
theorem execCopy_off {s : State} (a0) (h : s.awake = false) : execCopy a0 s = .next s := by
  unfold execCopy; exact onDevice_off h
theorem execFill_kept (s : State) (a0) : Kept s (execFill a0 s) := by
  unfold execFill; exact onItem_kept ..
theorem execFill_off {s : State} (a0) (h : s.awake = false) : execFill a0 s = .next s := by
  unfold execFill; exact onDevice_off h
theorem execGather_kept (s : State) (a0) : Kept s (execGather a0 s) := by
  unfold execGather; exact onItem_kept ..
theorem execGather_off {s : State} (a0) (h : s.awake = false) : execGather a0 s = .next s := by
  unfold execGather; exact onDevice_off h
theorem execSetpointSend_kept (s : State) (a0) : Kept s (execSetpointSend a0 s) := by
  unfold execSetpointSend; exact onItem_kept ..
theorem execSetpointSend_off {s : State} (a0) (h : s.awake = false) : execSetpointSend a0 s = .next s := by
  unfold execSetpointSend; exact onDevice_off h
theorem execCorrectionSend_kept (s : State) (a0) : Kept s (execCorrectionSend a0 s) := by
  unfold execCorrectionSend; exact onItem_kept ..
theorem execCorrectionSend_off {s : State} (a0) (h : s.awake = false) : execCorrectionSend a0 s = .next s := by
  unfold execCorrectionSend; exact onDevice_off h
theorem execDeltaBroadcast_kept (s : State) (a0) : Kept s (execDeltaBroadcast a0 s) := by
  unfold execDeltaBroadcast; exact onForm_kept ..
theorem execDeltaBroadcast_off {s : State} (a0) (h : s.awake = false) : execDeltaBroadcast a0 s = .next s := by
  unfold execDeltaBroadcast; exact onDevice_off h
theorem execCandSend_kept (s : State) (a0) : Kept s (execCandSend a0 s) := by
  unfold execCandSend; exact onForm_kept ..
theorem execCandSend_off {s : State} (a0) (h : s.awake = false) : execCandSend a0 s = .next s := by
  unfold execCandSend; exact onDevice_off h
theorem execCandGather_kept (s : State) (a0) : Kept s (execCandGather a0 s) := by
  unfold execCandGather; exact onForm_kept ..
theorem execCandGather_off {s : State} (a0) (h : s.awake = false) : execCandGather a0 s = .next s := by
  unfold execCandGather; exact onDevice_off h
theorem execGatherLimitExpiry_kept (s : State) (a0) : Kept s (execGatherLimitExpiry a0 s) := by
  unfold execGatherLimitExpiry; exact onDevice_kept ..
theorem execGatherLimitExpiry_off {s : State} (a0) (h : s.awake = false) : execGatherLimitExpiry a0 s = .next s := by
  unfold execGatherLimitExpiry; exact onDevice_off h
theorem execKernel_kept (s : State) (a0) : Kept s (execKernel a0 s) := by
  unfold execKernel; exact onItem_kept ..
theorem execKernel_off {s : State} (a0) (h : s.awake = false) : execKernel a0 s = .next s := by
  unfold execKernel; exact onDevice_off h
theorem execRotationCount_kept (s : State) : Kept s (execRotationCount s) := by
  unfold execRotationCount; exact onDevice_kept ..
theorem execRotationCount_off {s : State} (h : s.awake = false) : execRotationCount s = .next s := by
  unfold execRotationCount; exact onDevice_off h
theorem execRecount_kept (s : State) : Kept s (execRecount s) := by
  unfold execRecount; exact onDevice_kept ..
theorem execRecount_off {s : State} (h : s.awake = false) : execRecount s = .next s := by
  unfold execRecount; exact onDevice_off h
theorem execRecountOverflowSweep_kept (s : State) : Kept s (execRecountOverflowSweep s) := by
  unfold execRecountOverflowSweep; exact onDevice_kept ..
theorem execRecountOverflowSweep_off {s : State} (h : s.awake = false) : execRecountOverflowSweep s = .next s := by
  unfold execRecountOverflowSweep; exact onDevice_off h
theorem execFullCount_kept (s : State) : Kept s (execFullCount s) := by
  unfold execFullCount; exact onDevice_kept ..
theorem execFullCount_off {s : State} (h : s.awake = false) : execFullCount s = .next s := by
  unfold execFullCount; exact onDevice_off h
theorem execRecountOverdue_kept (s : State) : Kept s (execRecountOverdue s) := by
  unfold execRecountOverdue; exact onDevice_kept ..
theorem execRecountOverdue_off {s : State} (h : s.awake = false) : execRecountOverdue s = .next s := by
  unfold execRecountOverdue; exact onDevice_off h
theorem execSliceBoundary_kept (s : State) : Kept s (execSliceBoundary s) := by
  unfold execSliceBoundary; exact onDevice_kept ..
theorem execSliceBoundary_off {s : State} (h : s.awake = false) : execSliceBoundary s = .next s := by
  unfold execSliceBoundary; exact onDevice_off h
theorem execObsSourceTimeout_kept (s : State) (a0) : Kept s (execObsSourceTimeout a0 s) := by
  unfold execObsSourceTimeout; exact onDevice_kept ..
theorem execObsSourceTimeout_off {s : State} (a0) (h : s.awake = false) : execObsSourceTimeout a0 s = .next s := by
  unfold execObsSourceTimeout; exact onDevice_off h
theorem execPeerSourceTimeout_kept (s : State) (a0) : Kept s (execPeerSourceTimeout a0 s) := by
  unfold execPeerSourceTimeout; exact onDevice_kept ..
theorem execPeerSourceTimeout_off {s : State} (a0) (h : s.awake = false) : execPeerSourceTimeout a0 s = .next s := by
  unfold execPeerSourceTimeout; exact onDevice_off h
theorem execFrameStart_kept (s : State) (a0) (a1) (a2) (a3) : Kept s (execFrameStart a0 a1 a2 a3 s) := by
  unfold execFrameStart; exact onDevice_kept ..
theorem execFrameStart_off {s : State} (a0) (a1) (a2) (a3) (h : s.awake = false) : execFrameStart a0 a1 a2 a3 s = .next s := by
  unfold execFrameStart; exact onDevice_off h
theorem execCsiLongPacket_kept (s : State) (a0) (a1) (a2) (a3) (a4) (a5) (a6) : Kept s (execCsiLongPacket a0 a1 a2 a3 a4 a5 a6 s) := by
  unfold execCsiLongPacket; exact onDevice_kept ..
theorem execCsiLongPacket_off {s : State} (a0) (a1) (a2) (a3) (a4) (a5) (a6) (h : s.awake = false) : execCsiLongPacket a0 a1 a2 a3 a4 a5 a6 s = .next s := by
  unfold execCsiLongPacket; exact onDevice_off h
theorem execFrameEnd_kept (s : State) (a0) (a1) (a2) (a3) : Kept s (execFrameEnd a0 a1 a2 a3 s) := by
  unfold execFrameEnd; exact onDevice_kept ..
theorem execFrameEnd_off {s : State} (a0) (a1) (a2) (a3) (h : s.awake = false) : execFrameEnd a0 a1 a2 a3 s = .next s := by
  unfold execFrameEnd; exact onDevice_off h
theorem execFrameMaxTimeout_kept (s : State) (a0) : Kept s (execFrameMaxTimeout a0 s) := by
  unfold execFrameMaxTimeout; exact onDevice_kept ..
theorem execFrameMaxTimeout_off {s : State} (a0) (h : s.awake = false) : execFrameMaxTimeout a0 s = .next s := by
  unfold execFrameMaxTimeout; exact onDevice_off h
theorem execFfmDecision_kept (s : State) (a0) : Kept s (execFfmDecision a0 s) := by
  unfold execFfmDecision; exact onDevice_kept ..
theorem execFfmDecision_off {s : State} (a0) (h : s.awake = false) : execFfmDecision a0 s = .next s := by
  unfold execFfmDecision; exact onDevice_off h
theorem execFpTransmitOpportunity_kept (s : State) (a0) : Kept s (execFpTransmitOpportunity a0 s) := by
  unfold execFpTransmitOpportunity; exact onDevice_kept ..
theorem execFpTransmitOpportunity_off {s : State} (a0) (h : s.awake = false) : execFpTransmitOpportunity a0 s = .next s := by
  unfold execFpTransmitOpportunity; exact onDevice_off h
theorem execTimeFrameDue_kept (s : State) (a0) : Kept s (execTimeFrameDue a0 s) := by
  unfold execTimeFrameDue; exact onDevice_kept ..
theorem execTimeFrameDue_off {s : State} (a0) (h : s.awake = false) : execTimeFrameDue a0 s = .next s := by
  unfold execTimeFrameDue; exact onDevice_off h
theorem execSetpointLateDiscard_kept (s : State) (a0) : Kept s (execSetpointLateDiscard a0 s) := by
  unfold execSetpointLateDiscard; exact onDevice_kept ..
theorem execSetpointLateDiscard_off {s : State} (a0) (h : s.awake = false) : execSetpointLateDiscard a0 s = .next s := by
  unfold execSetpointLateDiscard; exact onDevice_off h
theorem execFpFrameReceive_kept (s : State) (a0) (a1) (a2) : Kept s (execFpFrameReceive a0 a1 a2 s) := by
  unfold execFpFrameReceive; exact onDevice_kept ..
theorem execFpFrameReceive_off {s : State} (a0) (a1) (a2) (h : s.awake = false) : execFpFrameReceive a0 a1 a2 s = .next s := by
  unfold execFpFrameReceive; exact onDevice_off h
theorem execFpFeedbackTimeout_kept (s : State) (a0) (a1) : Kept s (execFpFeedbackTimeout a0 a1 s) := by
  unfold execFpFeedbackTimeout; exact onDevice_kept ..
theorem execFpFeedbackTimeout_off {s : State} (a0) (a1) (h : s.awake = false) : execFpFeedbackTimeout a0 a1 s = .next s := by
  unfold execFpFeedbackTimeout; exact onDevice_off h
theorem execPlcaCoordinatorLost_kept (s : State) (a0) : Kept s (execPlcaCoordinatorLost a0 s) := by
  unfold execPlcaCoordinatorLost; exact onDevice_kept ..
theorem execPlcaCoordinatorLost_off {s : State} (a0) (h : s.awake = false) : execPlcaCoordinatorLost a0 s = .next s := by
  unfold execPlcaCoordinatorLost; exact onDevice_off h
theorem execPlcaResume_kept (s : State) (a0) : Kept s (execPlcaResume a0 s) := by
  unfold execPlcaResume; exact onDevice_kept ..
theorem execPlcaResume_off {s : State} (a0) (h : s.awake = false) : execPlcaResume a0 s = .next s := by
  unfold execPlcaResume; exact onDevice_off h
theorem execPlLinkTraining_kept (s : State) (a0) (a1) : Kept s (execPlLinkTraining a0 a1 s) := by
  unfold execPlLinkTraining; exact onDevice_kept ..
theorem execPlLinkTraining_off {s : State} (a0) (a1) (h : s.awake = false) : execPlLinkTraining a0 a1 s = .next s := by
  unfold execPlLinkTraining; exact onDevice_off h
theorem execPlRetryLimit_kept (s : State) (a0) : Kept s (execPlRetryLimit a0 s) := by
  unfold execPlRetryLimit; exact onDevice_kept ..
theorem execPlRetryLimit_off {s : State} (a0) (h : s.awake = false) : execPlRetryLimit a0 s = .next s := by
  unfold execPlRetryLimit; exact onDevice_off h
theorem execPlRetrainRetry_kept (s : State) (a0) (a1) : Kept s (execPlRetrainRetry a0 a1 s) := by
  unfold execPlRetrainRetry; exact onDevice_kept ..
theorem execPlRetrainRetry_off {s : State} (a0) (a1) (h : s.awake = false) : execPlRetrainRetry a0 a1 s = .next s := by
  unfold execPlRetrainRetry; exact onDevice_off h
theorem execPlCreditTimeout_kept (s : State) (a0) (a1) : Kept s (execPlCreditTimeout a0 a1 s) := by
  unfold execPlCreditTimeout; exact onDevice_kept ..
theorem execPlCreditTimeout_off {s : State} (a0) (a1) (h : s.awake = false) : execPlCreditTimeout a0 a1 s = .next s := by
  unfold execPlCreditTimeout; exact onDevice_off h
theorem execDeltaMessage_kept (s : State) (a0) (a1) (a2) (a3) : Kept s (execDeltaMessage a0 a1 a2 a3 s) := by
  unfold execDeltaMessage; exact onDevice_kept ..
theorem execDeltaMessage_off {s : State} (a0) (a1) (a2) (a3) (h : s.awake = false) : execDeltaMessage a0 a1 a2 a3 s = .next s := by
  unfold execDeltaMessage; exact onDevice_off h
theorem execFullStateReq_kept (s : State) (a0) : Kept s (execFullStateReq a0 s) := by
  unfold execFullStateReq; exact onDevice_kept ..
theorem execFullStateReq_off {s : State} (a0) (h : s.awake = false) : execFullStateReq a0 s = .next s := by
  unfold execFullStateReq; exact onDevice_off h
theorem execFullState_kept (s : State) (a0) (a1) (a2) : Kept s (execFullState a0 a1 a2 s) := by
  unfold execFullState; exact onDevice_kept ..
theorem execFullState_off {s : State} (a0) (a1) (a2) (h : s.awake = false) : execFullState a0 a1 a2 s = .next s := by
  unfold execFullState; exact onDevice_off h
theorem execCandMessage_kept (s : State) (a0) (a1) (a2) : Kept s (execCandMessage a0 a1 a2 s) := by
  unfold execCandMessage; exact onDevice_kept ..
theorem execCandMessage_off {s : State} (a0) (a1) (a2) (h : s.awake = false) : execCandMessage a0 a1 a2 s = .next s := by
  unfold execCandMessage; exact onDevice_off h
theorem execConfigMessage_kept (s : State) (a0) (a1) (a2) (a3) (a4) : Kept s (execConfigMessage a0 a1 a2 a3 a4 s) := by
  unfold execConfigMessage; exact onDevice_kept ..
theorem execConfigMessage_off {s : State} (a0) (a1) (a2) (a3) (a4) (h : s.awake = false) : execConfigMessage a0 a1 a2 a3 a4 s = .next s := by
  unfold execConfigMessage; exact onDevice_off h
theorem execPeerConfigTimeout_kept (s : State) (a0) : Kept s (execPeerConfigTimeout a0 s) := by
  unfold execPeerConfigTimeout; exact onDevice_kept ..
theorem execPeerConfigTimeout_off {s : State} (a0) (h : s.awake = false) : execPeerConfigTimeout a0 s = .next s := by
  unfold execPeerConfigTimeout; exact onDevice_off h
theorem execEccWriteBack_kept (s : State) : Kept s (execEccWriteBack s) := by
  unfold execEccWriteBack; exact onDevice_kept ..
theorem execEccWriteBack_off {s : State} (h : s.awake = false) : execEccWriteBack s = .next s := by
  unfold execEccWriteBack; exact onDevice_off h
theorem execCorrectionWindowEnd_kept (s : State) : Kept s (execCorrectionWindowEnd s) := by
  unfold execCorrectionWindowEnd; exact onDevice_kept ..
theorem execCorrectionWindowEnd_off {s : State} (h : s.awake = false) : execCorrectionWindowEnd s = .next s := by
  unfold execCorrectionWindowEnd; exact onDevice_off h
theorem execAutoRepair_kept (s : State) : Kept s (execAutoRepair s) := by
  unfold execAutoRepair; exact onDevice_kept ..
theorem execAutoRepair_off {s : State} (h : s.awake = false) : execAutoRepair s = .next s := by
  unfold execAutoRepair; exact onDevice_off h
theorem execMcRequestPromotion_kept (s : State) : Kept s (execMcRequestPromotion s) := by
  unfold execMcRequestPromotion; exact onDevice_kept ..
theorem execMcRequestPromotion_off {s : State} (h : s.awake = false) : execMcRequestPromotion s = .next s := by
  unfold execMcRequestPromotion; exact onDevice_off h
theorem execSafeReqAssert_kept (s : State) : Kept s (execSafeReqAssert s) := by
  unfold execSafeReqAssert; exact onDevice_kept ..
theorem execSafeReqAssert_off {s : State} (h : s.awake = false) : execSafeReqAssert s = .next s := by
  unfold execSafeReqAssert; exact onDevice_off h
theorem execSafeReqRelease_kept (s : State) : Kept s (execSafeReqRelease s) := by
  unfold execSafeReqRelease; exact onDevice_kept ..
theorem execSafeReqRelease_off {s : State} (h : s.awake = false) : execSafeReqRelease s = .next s := by
  unfold execSafeReqRelease; exact onDevice_off h
theorem execSafeOkReadback_kept (s : State) (a0) (a1) : Kept s (execSafeOkReadback a0 a1 s) := by
  unfold execSafeOkReadback; exact onCount_kept ..
theorem execSafeOkReadback_off {s : State} (a0) (a1) (h : s.awake = false) : execSafeOkReadback a0 a1 s = .next s := by
  unfold execSafeOkReadback; exact onDevice_off h
theorem execCoverageEvaluation_kept (s : State) : Kept s (execCoverageEvaluation s) := by
  unfold execCoverageEvaluation; exact onCount_kept ..
theorem execCoverageEvaluation_off {s : State} (h : s.awake = false) : execCoverageEvaluation s = .next s := by
  unfold execCoverageEvaluation; exact onDevice_off h
theorem execSelftestSliceStart_kept (s : State) (a0) : Kept s (execSelftestSliceStart a0 s) := by
  unfold execSelftestSliceStart; exact onDevice_kept ..
theorem execSelftestSliceStart_off {s : State} (a0) (h : s.awake = false) : execSelftestSliceStart a0 s = .next s := by
  unfold execSelftestSliceStart; exact onDevice_off h
theorem execSelftestSliceEnd_kept (s : State) (a0) (a1) : Kept s (execSelftestSliceEnd a0 a1 s) := by
  unfold execSelftestSliceEnd; exact onDevice_kept ..
theorem execSelftestSliceEnd_off {s : State} (a0) (a1) (h : s.awake = false) : execSelftestSliceEnd a0 a1 s = .next s := by
  unfold execSelftestSliceEnd; exact onDevice_off h
theorem execWatchdogExpiry_kept (s : State) (a0) : Kept s (execWatchdogExpiry a0 s) := by
  unfold execWatchdogExpiry; exact onDevice_kept ..
theorem execWatchdogExpiry_off {s : State} (a0) (h : s.awake = false) : execWatchdogExpiry a0 s = .next s := by
  unfold execWatchdogExpiry; exact onDevice_off h
theorem execCcCoreReady_kept (s : State) (a0) : Kept s (execCcCoreReady a0 s) := by
  unfold execCcCoreReady; exact onDevice_kept ..
theorem execCcCoreReady_off {s : State} (a0) (h : s.awake = false) : execCcCoreReady a0 s = .next s := by
  unfold execCcCoreReady; exact onDevice_off h
theorem execTamperEvent_kept (s : State) (a0) : Kept s (execTamperEvent a0 s) := by
  unfold execTamperEvent; exact onDevice_kept ..
theorem execTamperEvent_off {s : State} (a0) (h : s.awake = false) : execTamperEvent a0 s = .next s := by
  unfold execTamperEvent; exact onDevice_off h
theorem execThimbleWipeDone_off {s : State} (h : s.awake = false) : execThimbleWipeDone s = .next s := by
  unfold execThimbleWipeDone; simp [h]
theorem execEncoderFaultInputRelease_kept (s : State) (a0) : Kept s (execEncoderFaultInputRelease a0 s) := by
  unfold execEncoderFaultInputRelease; exact onDevice_kept ..
theorem execEncoderFaultInputRelease_off {s : State} (a0) (h : s.awake = false) : execEncoderFaultInputRelease a0 s = .next s := by
  unfold execEncoderFaultInputRelease; exact onDevice_off h
theorem execEncoderOverspeedEnd_kept (s : State) : Kept s (execEncoderOverspeedEnd s) := by
  unfold execEncoderOverspeedEnd; exact onDevice_kept ..
theorem execEncoderOverspeedEnd_off {s : State} (h : s.awake = false) : execEncoderOverspeedEnd s = .next s := by
  unfold execEncoderOverspeedEnd; exact onDevice_off h
theorem execD3hotExit_kept (s : State) : Kept s (execD3hotExit s) := by
  unfold execD3hotExit; exact onDevice_kept ..
theorem execD3hotExit_off {s : State} (h : s.awake = false) : execD3hotExit s = .next s := by
  unfold execD3hotExit; exact onDevice_off h
theorem execPlFlitReceive_kept (s : State) (a0) (a1) : Kept s (execPlFlitReceive a0 a1 s) := by
  unfold execPlFlitReceive; exact onDevice_kept ..
theorem execPlFlitReceive_off {s : State} (a0) (a1) (h : s.awake = false) : execPlFlitReceive a0 a1 s = .next s := by
  unfold execPlFlitReceive; exact onDevice_off h
theorem execCsiShortPacket_kept (s : State) (a0) (a1) (a2) (a3) : Kept s (execCsiShortPacket a0 a1 a2 a3 s) := by
  unfold execCsiShortPacket; exact onDevice_kept ..
theorem execCsiShortPacket_off {s : State} (a0) (a1) (a2) (a3) (h : s.awake = false) : execCsiShortPacket a0 a1 a2 a3 s = .next s := by
  unfold execCsiShortPacket; exact onDevice_off h

/-- Every other command keeps the queue, the grade, the board position, the Global Counter and the Fuse Map. -/
theorem exec_kept (c : Instr) (s : State) (h : specialCommand c = false) : Kept s (exec c s) := by
  match c with
  | .jobDefine a0 a1 => exact execJobDefine_kept s a0 a1
  | .jobDelete a0 a1 => exact execJobDelete_kept s a0 a1
  | .tableLoad a0 a1 => exact execTableLoad_kept s a0 a1
  | .listLoad a0 a1 => exact execListLoad_kept s a0 a1
  | .configWrite a0 a1 => exact execConfigWrite_kept s a0 a1
  | .jobArm a0 a1 => exact execJobArm_kept s a0 a1
  | .jobDisarm a0 a1 => exact execJobDisarm_kept s a0 a1
  | .channelGoal a0 a1 => exact execChannelGoal_kept s a0 a1
  | .servicePriority a0 a1 => exact execServicePriority_kept s a0 a1
  | .patternInstall a0 a1 => exact execPatternInstall_kept s a0 a1
  | .patternRetire a0 a1 => exact execPatternRetire_kept s a0 a1
  | .networkLoad a0 a1 => exact execNetworkLoad_kept s a0 a1
  | .safetyResume a0 a1 => exact execSafetyResume_kept s a0 a1
  | .memoryMode a0 a1 => exact execMemoryMode_kept s a0 a1
  | .memFlipArm a0 a1 => exact execMemFlipArm_kept s a0 a1
  | .memRepair a0 a1 => exact execMemRepair_kept s a0 a1
  | .moveEngineResume a0 a1 => exact execMoveEngineResume_kept s a0 a1
  | .lineReference a0 a1 => exact execLineReference_kept s a0 a1
  | .syncAlign a0 a1 => exact execSyncAlign_kept s a0 a1
  | .fwLoad a0 a1 => exact execFwLoad_kept s a0 a1
  | .traceControl a0 a1 => exact execTraceControl_kept s a0 a1
  | .attest a0 a1 => exact execAttest_kept s a0 a1
  | .powerState a0 a1 => exact execPowerState_kept s a0 a1
  | .lifecycleSet a0 a1 => exact execLifecycleSet_kept s a0 a1
  | .keyProvision a0 a1 => exact execKeyProvision_kept s a0 a1
  | .unknownOpcodeRefusal a0 a1 a2 => exact execUnknownOpcodeRefusal_kept s a0 a1 a2
  | .doorbellCollision a0 a1 => exact execDoorbellCollision_kept s a0 a1
  | .mbxSqTailWrite a0 => exact execMbxSqTailWrite_kept s a0
  | .ringHeadWrite a0 a1 => exact execRingHeadWrite_kept s a0 a1
  | .alarmStickyClear a0 a1 => exact execAlarmStickyClear_kept s a0 a1
  | .firstFaultUnfreeze a0 => exact execFirstFaultUnfreeze_kept s a0
  | .registerWrite a0 a1 a2 => exact execRegisterWrite_kept s a0 a1 a2
  | .registerLoRead a0 a1 => exact execRegisterLoRead_kept s a0 a1
  | .bar2Read a0 a1 => exact execBar2Read_kept s a0 a1
  | .bar2Write a0 a1 => exact execBar2Write_kept s a0 a1
  | .submissionEntry => exact execSubmissionEntry_kept s
  | .functionLevelReset => exact execFunctionLevelReset_kept s
  | .d3hotEntry => exact execD3hotEntry_kept s
  | .msiXMessage a0 => exact execMsiXMessage_kept s a0
  | .dieLinkFailure a0 => exact execDieLinkFailure_kept s a0
  | .dieLinkRetrain a0 => exact execDieLinkRetrain_kept s a0
  | .encoderCount a0 a1 a2 => exact execEncoderCount_kept s a0 a1 a2
  | .encoderZEdge a0 => exact execEncoderZEdge_kept s a0
  | .encoderFaultInput a0 => exact execEncoderFaultInput_kept s a0
  | .encoderCapture => exact execEncoderCapture_kept s
  | .encoderRedundantCompare => exact execEncoderRedundantCompare_kept s
  | .lineStateEvaluation => exact execLineStateEvaluation_kept s
  | .virtualAdvance => exact execVirtualAdvance_kept s
  | .lineTick => exact execLineTick_kept s
  | .lineMessageSample => exact execLineMessageSample_kept s
  | .lineMessageReceive a0 a1 a2 a3 a4 a5 a6 => exact execLineMessageReceive_kept s a0 a1 a2 a3 a4 a5 a6
  | .lineMessageApply => exact execLineMessageApply_kept s
  | .lineMsgTimeout => exact execLineMsgTimeout_kept s
  | .syncEdge => cases h
  | .syncTimeout => exact execSyncTimeout_kept s
  | .jobLaunch => exact execJobLaunch_kept s
  | .listTriggering => exact execListTriggering_kept s
  | .signalApply => exact execSignalApply_kept s
  | .waitLimitExpiry a0 => exact execWaitLimitExpiry_kept s a0
  | .engineGet a0 => exact execEngineGet_kept s a0
  | .itemCompletion a0 => exact execItemCompletion_kept s a0
  | .releasedItemReady => exact execReleasedItemReady_kept s
  | .releaseDeadline a0 => exact execReleaseDeadline_kept s a0
  | .nop a0 => exact execNop_kept s a0
  | .jobEvent a0 => exact execJobEvent_kept s a0
  | .signal a0 => exact execSignal_kept s a0
  | .wait a0 => exact execWait_kept s a0
  | .delayInsert a0 => exact execDelayInsert_kept s a0
  | .delayCancel a0 => exact execDelayCancel_kept s a0
  | .epochCommit a0 => exact execEpochCommit_kept s a0
  | .epochApply a0 => exact execEpochApply_kept s a0
  | .deltaInject a0 => exact execDeltaInject_kept s a0
  | .edgeRead a0 => exact execEdgeRead_kept s a0
  | .search a0 => exact execSearch_kept s a0
  | .darn a0 => exact execDarn_kept s a0
  | .structureLoad a0 => exact execStructureLoad_kept s a0
  | .ease a0 => exact execEase_kept s a0
  | .qpSolve a0 => exact execQpSolve_kept s a0
  | .lsqFitClearAccumulate a0 => exact execLsqFitClearAccumulate_kept s a0
  | .lsqFitAccumulate a0 => exact execLsqFitAccumulate_kept s a0
  | .lsqFitSolve a0 => exact execLsqFitSolve_kept s a0
  | .networkSegment a0 => exact execNetworkSegment_kept s a0
  | .matmul a0 => exact execMatmul_kept s a0
  | .topk a0 => exact execTopk_kept s a0
  | .topkMerge a0 => exact execTopkMerge_kept s a0
  | .frameTake a0 => exact execFrameTake_kept s a0
  | .frameTakeTimeout a0 => exact execFrameTakeTimeout_kept s a0
  | .frameReturn a0 => exact execFrameReturn_kept s a0
  | .goldenInject a0 => exact execGoldenInject_kept s a0
  | .checkB a0 => exact execCheckB_kept s a0
  | .stitch a0 => exact execStitch_kept s a0
  | .hold a0 => exact execHold_kept s a0
  | .copy a0 => exact execCopy_kept s a0
  | .fill a0 => exact execFill_kept s a0
  | .gather a0 => exact execGather_kept s a0
  | .setpointSend a0 => exact execSetpointSend_kept s a0
  | .correctionSend a0 => exact execCorrectionSend_kept s a0
  | .deltaBroadcast a0 => exact execDeltaBroadcast_kept s a0
  | .candSend a0 => exact execCandSend_kept s a0
  | .candGather a0 => exact execCandGather_kept s a0
  | .gatherLimitExpiry a0 => exact execGatherLimitExpiry_kept s a0
  | .kernel a0 => exact execKernel_kept s a0
  | .rotationCount => exact execRotationCount_kept s
  | .recount => exact execRecount_kept s
  | .recountOverflowSweep => exact execRecountOverflowSweep_kept s
  | .fullCount => exact execFullCount_kept s
  | .recountOverdue => exact execRecountOverdue_kept s
  | .sliceBoundary => exact execSliceBoundary_kept s
  | .obsSourceTimeout a0 => exact execObsSourceTimeout_kept s a0
  | .peerSourceTimeout a0 => exact execPeerSourceTimeout_kept s a0
  | .frameStart a0 a1 a2 a3 => exact execFrameStart_kept s a0 a1 a2 a3
  | .csiLongPacket a0 a1 a2 a3 a4 a5 a6 => exact execCsiLongPacket_kept s a0 a1 a2 a3 a4 a5 a6
  | .frameEnd a0 a1 a2 a3 => exact execFrameEnd_kept s a0 a1 a2 a3
  | .frameMaxTimeout a0 => exact execFrameMaxTimeout_kept s a0
  | .ffmDecision a0 => exact execFfmDecision_kept s a0
  | .fpTransmitOpportunity a0 => exact execFpTransmitOpportunity_kept s a0
  | .timeFrameDue a0 => exact execTimeFrameDue_kept s a0
  | .setpointLateDiscard a0 => exact execSetpointLateDiscard_kept s a0
  | .fpFrameReceive a0 a1 a2 => exact execFpFrameReceive_kept s a0 a1 a2
  | .fpFeedbackTimeout a0 a1 => exact execFpFeedbackTimeout_kept s a0 a1
  | .plcaCoordinatorLost a0 => exact execPlcaCoordinatorLost_kept s a0
  | .plcaResume a0 => exact execPlcaResume_kept s a0
  | .plLinkTraining a0 a1 => exact execPlLinkTraining_kept s a0 a1
  | .plRetryLimit a0 => exact execPlRetryLimit_kept s a0
  | .plRetrainRetry a0 a1 => exact execPlRetrainRetry_kept s a0 a1
  | .plCreditTimeout a0 a1 => exact execPlCreditTimeout_kept s a0 a1
  | .deltaMessage a0 a1 a2 a3 => exact execDeltaMessage_kept s a0 a1 a2 a3
  | .fullStateReq a0 => exact execFullStateReq_kept s a0
  | .fullState a0 a1 a2 => exact execFullState_kept s a0 a1 a2
  | .candMessage a0 a1 a2 => exact execCandMessage_kept s a0 a1 a2
  | .configMessage a0 a1 a2 a3 a4 => exact execConfigMessage_kept s a0 a1 a2 a3 a4
  | .peerConfigTimeout a0 => exact execPeerConfigTimeout_kept s a0
  | .eccWriteBack => exact execEccWriteBack_kept s
  | .correctionWindowEnd => exact execCorrectionWindowEnd_kept s
  | .autoRepair => exact execAutoRepair_kept s
  | .mcRequestPromotion => exact execMcRequestPromotion_kept s
  | .safeReqAssert => exact execSafeReqAssert_kept s
  | .safeReqRelease => exact execSafeReqRelease_kept s
  | .safeOkReadback a0 a1 => exact execSafeOkReadback_kept s a0 a1
  | .coverageEvaluation => exact execCoverageEvaluation_kept s
  | .selftestSliceStart a0 => exact execSelftestSliceStart_kept s a0
  | .selftestSliceEnd a0 a1 => exact execSelftestSliceEnd_kept s a0 a1
  | .watchdogExpiry a0 => exact execWatchdogExpiry_kept s a0
  | .ccCoreReady a0 => exact execCcCoreReady_kept s a0
  | .tamperEvent a0 => exact execTamperEvent_kept s a0
  | .thimbleWipeDone => cases h
  | .porstAssert => cases h
  | .wake _ _ => cases h
  | .powerOffSwitch => cases h
  | .encoderFaultInputRelease a0 => exact execEncoderFaultInputRelease_kept s a0
  | .encoderOverspeedEnd => exact execEncoderOverspeedEnd_kept s
  | .d3hotExit => exact execD3hotExit_kept s
  | .powerRemoval _ => cases h
  | .plFlitReceive a0 a1 => exact execPlFlitReceive_kept s a0 a1
  | .csiShortPacket a0 a1 a2 a3 => exact execCsiShortPacket_kept s a0 a1 a2 a3

/-- The commands of power act on a device that is Off. -/
def powerCommand : Instr → Bool
  | .wake _ _ | .porstAssert | .powerOffSwitch | .powerRemoval _ => true
  | _ => false

/-- Every other command leaves a device that is Off as it is (R501). -/
theorem exec_off (c : Instr) {s : State} (h : s.awake = false) (hc : powerCommand c = false) : exec c s = .next s := by
  match c with
  | .jobDefine a0 a1 => exact execJobDefine_off a0 a1 h
  | .jobDelete a0 a1 => exact execJobDelete_off a0 a1 h
  | .tableLoad a0 a1 => exact execTableLoad_off a0 a1 h
  | .listLoad a0 a1 => exact execListLoad_off a0 a1 h
  | .configWrite a0 a1 => exact execConfigWrite_off a0 a1 h
  | .jobArm a0 a1 => exact execJobArm_off a0 a1 h
  | .jobDisarm a0 a1 => exact execJobDisarm_off a0 a1 h
  | .channelGoal a0 a1 => exact execChannelGoal_off a0 a1 h
  | .servicePriority a0 a1 => exact execServicePriority_off a0 a1 h
  | .patternInstall a0 a1 => exact execPatternInstall_off a0 a1 h
  | .patternRetire a0 a1 => exact execPatternRetire_off a0 a1 h
  | .networkLoad a0 a1 => exact execNetworkLoad_off a0 a1 h
  | .safetyResume a0 a1 => exact execSafetyResume_off a0 a1 h
  | .memoryMode a0 a1 => exact execMemoryMode_off a0 a1 h
  | .memFlipArm a0 a1 => exact execMemFlipArm_off a0 a1 h
  | .memRepair a0 a1 => exact execMemRepair_off a0 a1 h
  | .moveEngineResume a0 a1 => exact execMoveEngineResume_off a0 a1 h
  | .lineReference a0 a1 => exact execLineReference_off a0 a1 h
  | .syncAlign a0 a1 => exact execSyncAlign_off a0 a1 h
  | .fwLoad a0 a1 => exact execFwLoad_off a0 a1 h
  | .traceControl a0 a1 => exact execTraceControl_off a0 a1 h
  | .attest a0 a1 => exact execAttest_off a0 a1 h
  | .powerState a0 a1 => exact execPowerState_off a0 a1 h
  | .lifecycleSet a0 a1 => exact execLifecycleSet_off a0 a1 h
  | .keyProvision a0 a1 => exact execKeyProvision_off a0 a1 h
  | .unknownOpcodeRefusal a0 a1 a2 => exact execUnknownOpcodeRefusal_off a0 a1 a2 h
  | .doorbellCollision a0 a1 => exact execDoorbellCollision_off a0 a1 h
  | .mbxSqTailWrite a0 => exact execMbxSqTailWrite_off a0 h
  | .ringHeadWrite a0 a1 => exact execRingHeadWrite_off a0 a1 h
  | .alarmStickyClear a0 a1 => exact execAlarmStickyClear_off a0 a1 h
  | .firstFaultUnfreeze a0 => exact execFirstFaultUnfreeze_off a0 h
  | .registerWrite a0 a1 a2 => exact execRegisterWrite_off a0 a1 a2 h
  | .registerLoRead a0 a1 => exact execRegisterLoRead_off a0 a1 h
  | .bar2Read a0 a1 => exact execBar2Read_off a0 a1 h
  | .bar2Write a0 a1 => exact execBar2Write_off a0 a1 h
  | .submissionEntry => exact execSubmissionEntry_off h
  | .functionLevelReset => exact execFunctionLevelReset_off h
  | .d3hotEntry => exact execD3hotEntry_off h
  | .msiXMessage a0 => exact execMsiXMessage_off a0 h
  | .dieLinkFailure a0 => exact execDieLinkFailure_off a0 h
  | .dieLinkRetrain a0 => exact execDieLinkRetrain_off a0 h
  | .encoderCount a0 a1 a2 => exact execEncoderCount_off a0 a1 a2 h
  | .encoderZEdge a0 => exact execEncoderZEdge_off a0 h
  | .encoderFaultInput a0 => exact execEncoderFaultInput_off a0 h
  | .encoderCapture => exact execEncoderCapture_off h
  | .encoderRedundantCompare => exact execEncoderRedundantCompare_off h
  | .lineStateEvaluation => exact execLineStateEvaluation_off h
  | .virtualAdvance => exact execVirtualAdvance_off h
  | .lineTick => exact execLineTick_off h
  | .lineMessageSample => exact execLineMessageSample_off h
  | .lineMessageReceive a0 a1 a2 a3 a4 a5 a6 => exact execLineMessageReceive_off a0 a1 a2 a3 a4 a5 a6 h
  | .lineMessageApply => exact execLineMessageApply_off h
  | .lineMsgTimeout => exact execLineMsgTimeout_off h
  | .syncEdge => exact execSyncEdge_off h
  | .syncTimeout => exact execSyncTimeout_off h
  | .jobLaunch => exact execJobLaunch_off h
  | .listTriggering => exact execListTriggering_off h
  | .signalApply => exact execSignalApply_off h
  | .waitLimitExpiry a0 => exact execWaitLimitExpiry_off a0 h
  | .engineGet a0 => exact execEngineGet_off a0 h
  | .itemCompletion a0 => exact execItemCompletion_off a0 h
  | .releasedItemReady => exact execReleasedItemReady_off h
  | .releaseDeadline a0 => exact execReleaseDeadline_off a0 h
  | .nop a0 => exact execNop_off a0 h
  | .jobEvent a0 => exact execJobEvent_off a0 h
  | .signal a0 => exact execSignal_off a0 h
  | .wait a0 => exact execWait_off a0 h
  | .delayInsert a0 => exact execDelayInsert_off a0 h
  | .delayCancel a0 => exact execDelayCancel_off a0 h
  | .epochCommit a0 => exact execEpochCommit_off a0 h
  | .epochApply a0 => exact execEpochApply_off a0 h
  | .deltaInject a0 => exact execDeltaInject_off a0 h
  | .edgeRead a0 => exact execEdgeRead_off a0 h
  | .search a0 => exact execSearch_off a0 h
  | .darn a0 => exact execDarn_off a0 h
  | .structureLoad a0 => exact execStructureLoad_off a0 h
  | .ease a0 => exact execEase_off a0 h
  | .qpSolve a0 => exact execQpSolve_off a0 h
  | .lsqFitClearAccumulate a0 => exact execLsqFitClearAccumulate_off a0 h
  | .lsqFitAccumulate a0 => exact execLsqFitAccumulate_off a0 h
  | .lsqFitSolve a0 => exact execLsqFitSolve_off a0 h
  | .networkSegment a0 => exact execNetworkSegment_off a0 h
  | .matmul a0 => exact execMatmul_off a0 h
  | .topk a0 => exact execTopk_off a0 h
  | .topkMerge a0 => exact execTopkMerge_off a0 h
  | .frameTake a0 => exact execFrameTake_off a0 h
  | .frameTakeTimeout a0 => exact execFrameTakeTimeout_off a0 h
  | .frameReturn a0 => exact execFrameReturn_off a0 h
  | .goldenInject a0 => exact execGoldenInject_off a0 h
  | .checkB a0 => exact execCheckB_off a0 h
  | .stitch a0 => exact execStitch_off a0 h
  | .hold a0 => exact execHold_off a0 h
  | .copy a0 => exact execCopy_off a0 h
  | .fill a0 => exact execFill_off a0 h
  | .gather a0 => exact execGather_off a0 h
  | .setpointSend a0 => exact execSetpointSend_off a0 h
  | .correctionSend a0 => exact execCorrectionSend_off a0 h
  | .deltaBroadcast a0 => exact execDeltaBroadcast_off a0 h
  | .candSend a0 => exact execCandSend_off a0 h
  | .candGather a0 => exact execCandGather_off a0 h
  | .gatherLimitExpiry a0 => exact execGatherLimitExpiry_off a0 h
  | .kernel a0 => exact execKernel_off a0 h
  | .rotationCount => exact execRotationCount_off h
  | .recount => exact execRecount_off h
  | .recountOverflowSweep => exact execRecountOverflowSweep_off h
  | .fullCount => exact execFullCount_off h
  | .recountOverdue => exact execRecountOverdue_off h
  | .sliceBoundary => exact execSliceBoundary_off h
  | .obsSourceTimeout a0 => exact execObsSourceTimeout_off a0 h
  | .peerSourceTimeout a0 => exact execPeerSourceTimeout_off a0 h
  | .frameStart a0 a1 a2 a3 => exact execFrameStart_off a0 a1 a2 a3 h
  | .csiLongPacket a0 a1 a2 a3 a4 a5 a6 => exact execCsiLongPacket_off a0 a1 a2 a3 a4 a5 a6 h
  | .frameEnd a0 a1 a2 a3 => exact execFrameEnd_off a0 a1 a2 a3 h
  | .frameMaxTimeout a0 => exact execFrameMaxTimeout_off a0 h
  | .ffmDecision a0 => exact execFfmDecision_off a0 h
  | .fpTransmitOpportunity a0 => exact execFpTransmitOpportunity_off a0 h
  | .timeFrameDue a0 => exact execTimeFrameDue_off a0 h
  | .setpointLateDiscard a0 => exact execSetpointLateDiscard_off a0 h
  | .fpFrameReceive a0 a1 a2 => exact execFpFrameReceive_off a0 a1 a2 h
  | .fpFeedbackTimeout a0 a1 => exact execFpFeedbackTimeout_off a0 a1 h
  | .plcaCoordinatorLost a0 => exact execPlcaCoordinatorLost_off a0 h
  | .plcaResume a0 => exact execPlcaResume_off a0 h
  | .plLinkTraining a0 a1 => exact execPlLinkTraining_off a0 a1 h
  | .plRetryLimit a0 => exact execPlRetryLimit_off a0 h
  | .plRetrainRetry a0 a1 => exact execPlRetrainRetry_off a0 a1 h
  | .plCreditTimeout a0 a1 => exact execPlCreditTimeout_off a0 a1 h
  | .deltaMessage a0 a1 a2 a3 => exact execDeltaMessage_off a0 a1 a2 a3 h
  | .fullStateReq a0 => exact execFullStateReq_off a0 h
  | .fullState a0 a1 a2 => exact execFullState_off a0 a1 a2 h
  | .candMessage a0 a1 a2 => exact execCandMessage_off a0 a1 a2 h
  | .configMessage a0 a1 a2 a3 a4 => exact execConfigMessage_off a0 a1 a2 a3 a4 h
  | .peerConfigTimeout a0 => exact execPeerConfigTimeout_off a0 h
  | .eccWriteBack => exact execEccWriteBack_off h
  | .correctionWindowEnd => exact execCorrectionWindowEnd_off h
  | .autoRepair => exact execAutoRepair_off h
  | .mcRequestPromotion => exact execMcRequestPromotion_off h
  | .safeReqAssert => exact execSafeReqAssert_off h
  | .safeReqRelease => exact execSafeReqRelease_off h
  | .safeOkReadback a0 a1 => exact execSafeOkReadback_off a0 a1 h
  | .coverageEvaluation => exact execCoverageEvaluation_off h
  | .selftestSliceStart a0 => exact execSelftestSliceStart_off a0 h
  | .selftestSliceEnd a0 a1 => exact execSelftestSliceEnd_off a0 a1 h
  | .watchdogExpiry a0 => exact execWatchdogExpiry_off a0 h
  | .ccCoreReady a0 => exact execCcCoreReady_off a0 h
  | .tamperEvent a0 => exact execTamperEvent_off a0 h
  | .thimbleWipeDone => exact execThimbleWipeDone_off h
  | .porstAssert => cases hc
  | .wake _ _ => cases hc
  | .powerOffSwitch => cases hc
  | .encoderFaultInputRelease a0 => exact execEncoderFaultInputRelease_off a0 h
  | .encoderOverspeedEnd => exact execEncoderOverspeedEnd_off h
  | .d3hotExit => exact execD3hotExit_off h
  | .powerRemoval _ => cases hc
  | .plFlitReceive a0 a1 => exact execPlFlitReceive_off a0 a1 h
  | .csiShortPacket a0 a1 a2 a3 => exact execCsiShortPacket_off a0 a1 a2 a3 h

end Sys2Proof.Machine
end

