-- ==== Sys2Proof/Laws/Run.lean ====
section
/-!
SUPPORT. What running a program does, step by step.
-/

namespace Sys2Proof.Machine

open Sys2Proof

/-- A sequence runs its second part on what the first leaves, where the first gives a value. -/
theorem run_bind {α β : Type} (m : Run α) (f : α → Run β) (s : State) :
    runProg (m >>= f) s = (match runProg m s with | (t, .ok a) => runProg (f a) t | (t, .error e) => (t, .error e)) := by
  unfold runProg
  rw [ExceptT.run_bind]
  show (let r := (StateT.run (m.run >>= _) s); (r.2, r.1)) = _
  rw [StateT.run_bind]
  rcases h : (ExceptT.run m).run s with ⟨r | r, t⟩
  · simp; exact ⟨rfl, rfl⟩
  · simp; exact ⟨rfl, rfl⟩
theorem run_map {α β : Type} (f : α → β) (m : Run α) (s : State) :
    runProg (f <$> m) s = (match runProg m s with | (t, .ok a) => (t, .ok (f a)) | (t, .error e) => (t, .error e)) := by
  rw [map_eq_pure_bind, run_bind]; rfl

/-! The steps that programs are made of. -/

@[simp] theorem run_pure {α : Type} (a : α) (s : State) : runProg (pure a : Run α) s = (s, .ok a) := rfl
@[simp] theorem run_throw {α : Type} (f : Fail) (s : State) : runProg (throw f : Run α) s = (s, .error f) := rfl
@[simp] theorem run_get (s : State) : runProg (get : Run State) s = (s, .ok s) := rfl
@[simp] theorem run_change (f : State → State) (s : State) : runProg (change f) s = (f s, .ok ()) := rfl
@[simp] theorem run_stateOp {α : Type} (f : State → State × α) (s : State) : runProg (stateOp f) s = ((f s).1, .ok (f s).2) := rfl
@[simp] theorem run_checkOp {α : Type} (f : State → Check α) (s : State) : runProg (checkOp f) s = (s, f s) := rfl
theorem run_tryOp (f : State → Check State) (s : State) : runProg (tryOp f) s = (match f s with | .ok t => (t, .ok ()) | .error e => (s, .error e)) := by
  unfold tryOp runProg; simp only [ExceptT.run, StateT.run]; cases f s <;> rfl
@[simp] theorem run_ensure (c : Bool) (r a b : Nat) (s : State) :
    runProg (ensure c r a b) s = (s, if c then .ok () else .error { reason := r, detailA := a, detailB := b }) := by
  unfold ensure; cases c <;> rfl
@[simp] theorem run_poisoned {α : Type} (a : Nat) (s : State) : runProg (poisoned a : Run α) s = (s, .error { status := .poisoned, reason := 0x0A01, detailA := a }) := rfl

end Sys2Proof.Machine
end

