-- ==== Sys2Proof/Laws/Reads.lean ====
section
/-!
SUPPORT. Words that read clean (R389): what the firmware and the engines read of them.
-/

namespace Sys2Proof.Machine

open Sys2Proof

/-! The readings of a state depend on its memory, its regions and the device-level blocks alone. -/

theorem rest_split {s : State} {n : Nat} (h : s.atRest n = true) : s.hostReaches = true ∧ n < s.mbx.length ∧ (s.box n).busy = false ∧ s.accepted = [] ∧ s.serialBusy = none ∧ s.serves = true ∧
    s.attests = true := by
  simpa [State.atRest, and_assoc] using h


theorem doorbell_rest {s : State} {n : Nat} {op q : BitVec 16} (h : s.atRest n = true) :
    doorbell n op q s = (match startCommand n (accept n op q s) with
      | (t, some c) => completeMailbox n c t
      | (t, none) => if (t.box n).immediate then t else { t with serialBusy := some n }) := by
  obtain ⟨h1, h2, h3, h4, h5, h6, h7⟩ := rest_split h
  unfold doorbell
  simp only [h1, h3, Bool.not_true, Bool.false_eq_true, if_false]
  unfold serve
  have hl : (accept n op q s).accepted = [n] := by simp [accept, h4]
  rw [hl]; simp only [List.length_cons, List.length_nil]; unfold pump
  have hn : (accept n op q s).nextCommand = some n := by
    unfold State.nextCommand
    have : (accept n op q s).serves = true := h6
    have h5' : (accept n op q s).serialBusy = none := h5
    have hw : (accept n op q s).attestWaits n = false := by
      have : (accept n op q s).attests = true := h7
      simp [State.attestWaits, this]
    have hf : ((accept n op q s).box n).waited = false := by
      unfold State.box accept
      simp only [metArms_none h4, List.foldl_nil, nth_upd_self _ _ _ _ h2]
      exact serves_steady h6
    rw [this, hl]
    simp only [hw, hf, h5', Bool.not_true, Bool.false_eq_true, if_false, Bool.not_false, List.filter_cons, List.filter_nil, List.find?_cons,
      List.find?_nil, List.head?_cons, Option.isNone_none, if_true]
    cases ((accept n op q s).box n).immediate <;> simp
  rw [hn]
  simp only
  rcases startCommand n (accept n op q s) with ⟨t, _ | c⟩ <;> simp [pump]



theorem reads_of {s t : State} (h1 : t.mem = s.mem) (h2 : t.memCtl = s.memCtl) (h3 : t.devBlocks = s.devBlocks) (k : Nat) (w : Word) :
    t.reads k w = s.reads k w := by
  simp only [State.reads, h1, h2, rowCol_of h3 (by rw [h2])]

theorem readsAll_of {s t : State} (h1 : t.mem = s.mem) (h2 : t.memCtl = s.memCtl) (h3 : t.devBlocks = s.devBlocks) (k : Nat) (ws : List Word) :
    t.readsAll k ws = s.readsAll k ws := by
  induction ws generalizing k with
  | nil => rfl
  | cons w l ih => simp only [State.readsAll, reads_of h1 h2 h3, ih]

theorem ownerOf_of {s t : State} (h2 : t.memCtl = s.memCtl) (h3 : t.devBlocks = s.devBlocks) (k : Nat) : t.ownerOf k = s.ownerOf k := by
  simp only [State.ownerOf, State.lpRegion, lpFind_of h3, h2, State.devField, State.devBlock, h3]

theorem holds_of {s t : State} (h1 : t.mem = s.mem) (h2 : t.memCtl = s.memCtl) (h3 : t.devBlocks = s.devBlocks) (k : Nat) (ws : List Word) :
    t.holds k ws = s.holds k ws := by
  simp only [State.holds, readsAll_of h1 h2 h3, ownerOf_of h2 h3]

/-- A word that reads clean is read as it is, and nothing changes. -/
theorem readWord_reads {s : State} {k : Nat} {w : Word} (h : s.reads k w = true) (r : Requester) : readWord r k s = (s, ⟨w, false⟩) := by
  unfold State.reads at h
  rw [Bool.and_eq_true] at h
  obtain ⟨hm, h⟩ := h
  have hf : s.memCtl.merge.find? (·.word == k) = none := by
    rw [List.find?_eq_none]; intro e he; rw [List.all_eq_true] at hm; have := hm e he; simpa using this
  split at h
  · rename_i st hst
    have hd : decodeStored (s.rowCol k) st = .clean w := by simpa using h
    simp [readWord, flushWord, hf, readPlain, fetchStored, hst, hd]
  · simp at h

theorem readWords_reads {s : State} {k : Nat} {ws : List Word} (h : s.readsAll k ws = true) (r : Requester) :
    readWords r k ws.length s = (s, ws.map (⟨·, false⟩)) := by
  induction ws generalizing k with
  | nil => rfl
  | cons w t ih =>
    simp only [State.readsAll, Bool.and_eq_true] at h
    simp only [List.length_cons, readWords, readWord_reads h.1, ih h.2, List.map_cons]

theorem clean_words (ws : List Word) : anyBad (ws.map (⟨·, false⟩)) = false ∧ gotData (ws.map (⟨·, false⟩)) = ws := by
  simp [anyBad, gotData, Function.comp_def]

/-- Words that read clean are read without a change. -/
theorem run_getAll {s : State} {k n : Nat} {ws : List Word} (h : s.readsAll k ws = true) (hn : ws.length = n) (r : Requester) (a b : Nat) :
    runProg (getAll r k n a b) s = (s, .ok ws) := by
  subst hn
  simp only [getAll, run_bind, run_stateOp, readWords_reads h, clean_words]
  rfl

/-- A word of an object that reads clean. -/
theorem objectWord_holds {s : State} {k : Nat} {w : Word} (h : s.reads k w = true) (ho : (s.ownerOf k).isSome = true) : objectWord k s = (s, ⟨w, false⟩) := by
  simp [objectWord, ho, readWord_reads h]

theorem holds_cons {s : State} {k : Nat} {w : Word} {ws : List Word} (h : s.holds k (w :: ws) = true) :
    s.reads k w = true ∧ (s.ownerOf k).isSome = true ∧ s.holds (k + 1) ws = true := by
  simp only [State.holds, State.readsAll, List.length_cons, List.range_succ_eq_map, List.all_cons, List.all_map, Bool.and_eq_true] at h
  obtain ⟨⟨h1, h2⟩, h3, h4⟩ := h
  refine ⟨h1, h3, ?_⟩
  simp only [State.holds, h2, Bool.true_and]
  rw [List.all_eq_true] at h4 ⊢
  intro i hi
  have := h4 i hi
  simpa [Function.comp, Nat.add_assoc, Nat.add_comm 1] using this

theorem holds_take {s : State} {k : Nat} {ws vs : List Word} (h : s.holds k (ws ++ vs) = true) : s.holds k ws = true := by
  induction ws generalizing k with
  | nil => rfl
  | cons w l ih =>
    rw [List.cons_append] at h
    obtain ⟨h1, h2, h3⟩ := holds_cons h
    have h4 := ih h3
    simp only [State.holds, State.readsAll, List.length_cons, List.range_succ_eq_map, List.all_cons, List.all_map, Bool.and_eq_true, h1, true_and] at h4 ⊢
    refine ⟨h4.1, h2, ?_⟩
    rw [List.all_eq_true]; intro i hi; have h5 := h4.2; rw [List.all_eq_true] at h5; have := h5 i hi
    simpa [Function.comp, Nat.add_assoc, Nat.add_comm 1] using this

end Sys2Proof.Machine
end

