-- ==== Sys2Proof/Laws/Firmware.lean ====
section
/-!
SUPPORT. FW_LOAD (R432) and NETWORK_LOAD (R297): images whose every step passes.
-/

namespace Sys2Proof.Machine

open Sys2Proof

/-- A signature block whose key has the digest and whose signature verifies is trusted (R137). -/
theorem signatureCheck_ok {head block : List Word} {d : BitVec 512} (hk : BitVec.ofNat 512 (ofBytes (shake64 ((wordsBytes block).take 1952))) = d)
    (hv : mlDsaVerify ((wordsBytes block).take 1952) (wordsBytes head) (((wordsBytes block).drop 1952).take 3309) = true)
    (ht : (((wordsBytes block).drop 5261).take 19).all (· == 0) = true) : signatureCheck (some d) head block = .ok () := by
  simp only [signatureCheck, hk, hv, ht, beq_self_eq_true, Bool.and_self]
  rfl

/-- Step 3 of R432 on a trusted image whose SVN is not below the minimum. -/
theorem fwTrust_ok {head block : List Word} {s : State} (h : signatureCheck s.firmwareKey head block = .ok ())
    (hs : s.lcc.fuses.svnMin ≤ headBytes head 12 4) : fwTrust head block s = .ok () := by
  simp only [fwTrust, h, hs, decide_true]
  rfl

/-- Sections that read clean are copied. -/
theorem fwCopy_ends {u : State} {k : Nat} {h cc ker : List Word} (hc : u.readsAll (k + (fwSection h 1).1) cc = true) (nc : cc.length = (fwSection h 1).2)
    (hk : u.readsAll (k + (fwSection h 2).1) ker = true) (nk : ker.length = (fwSection h 2).2) : ∃ v, runProg (fwCopy k h) u = (v, .ok ()) := by
  simp only [fwCopy, run_bind, run_stateOp, ← nc, ← nk, readWords_reads hc, readWords_reads hk, clean_words]
  exact ⟨_, rfl⟩

/-- FW_LOAD of an image that passes every step of R432 goes on to the start of the cores. -/
theorem fwProg_ends {a : List Nat} {u : State} {h block cc ker : List Word} (h1 : (arg a 2 != 0xFFFFFFFF && arg a 2 != 0 && argAddr a 0 % 32 == 0) = true)
    (hp : fwPlaced u (argAddr a 0 / 32) (arg a 2) = true) (hj : u.activeJob.isNone = true)
    (hh : u.readsAll (argAddr a 0 / 32) h = true) (nh : h.length = 16) (hf : fwHeader h (arg a 2) = .ok ())
    (hb : u.readsAll (argAddr a 0 / 32 + 16) block = true) (nb : block.length = 165) (ht : fwTrust h block u = .ok ())
    (hc : u.readsAll (argAddr a 0 / 32 + (fwSection h 1).1) cc = true) (nc : cc.length = (fwSection h 1).2)
    (hk : u.readsAll (argAddr a 0 / 32 + (fwSection h 2).1) ker = true) (nk : ker.length = (fwSection h 2).2)
    (hd : ofBytes (imageDigest [cc, ker]) = headBytes h 256 64) : ∃ v, runProg (fwProg a) u = (v, .ok ()) := by
  simp only [Bool.and_eq_true] at h1
  obtain ⟨v, hv⟩ := fwCopy_ends hc nc hk nk
  unfold fwProg
  simp only [run_bind, run_ensure, h1, if_true, run_get, hp, hj, run_getAll hh nh, run_checkOp, hf, run_getAll hb nb, ht, List.mapM_cons, List.mapM_nil,
    run_getAll hc nc, run_getAll hk nk, run_pure, hd, beq_self_eq_true, hv, run_change]
  exact ⟨_, rfl⟩

/-- NETWORK_LOAD of an image that passes every step of R297 gives its network. -/
theorem networkSteps_ends {netId : Nat} {sp : Span} {u : State} {h block a b c : List Word} (nh : h.length = min 16 sp.len)
    (hh : u.readsAll sp.key h = true) (h1 : atStep 1 (netHeaderCheck sp.len h) = .ok ())
    (h2 : atStep 2 (need (headBytes h 6 1 == 12 || u.grade == .ft9_64I) 0x0102) = .ok ()) (nb : block.length = 165)
    (hb : u.readsAll (sp.key + 16) block = true) (hs : signatureCheck (u.patternKey (headBytes h 7 1)) h block = .ok ())
    (na : a.length = (netSection h 1).2) (ha : u.readsAll (sp.key + (netSection h 1).1) a = true)
    (nb' : b.length = (netSection h 2).2) (hb' : u.readsAll (sp.key + (netSection h 2).1) b = true)
    (nc : c.length = (netSection h 3).2) (hc : u.readsAll (sp.key + (netSection h 3).1) c = true)
    (hd : ofBytes (imageDigest [a, b, c]) = headBytes h 256 64)
    (h5 : eachLayer 5 (layerCheck (headBytes h 6 1)) (layersOf a (headBytes h 8 2)) 0 = .ok ())
    (h6 : eachLayer 6 (fun l => need (formatsOk l) 0x0603) (layersOf a (headBytes h 8 2)) 0 = .ok ())
    (h7 : eachLayer 7 (layerExtents b c) (layersOf a (headBytes h 8 2)) 0 = .ok ()) :
    ∃ net, runProg (networkSteps netId sp) u = (u, .ok net) := by
  unfold networkSteps
  simp only [run_bind, run_get, run_checkOp, run_getAll hh nh, h1, h2, run_getAll hb nb, hs, List.mapM_cons, List.mapM_nil, run_getAll ha na,
    run_getAll hb' nb', run_getAll hc nc, run_pure, hd, beq_self_eq_true, run_ensure, if_true, nth, List.getD_cons_zero, List.getD_cons_succ, h5, h6, h7]
  exact ⟨_, rfl⟩

end Sys2Proof.Machine
end

