-- ==== Sys2Proof/Laws/Fuses.lean ====
section
/-!
SUPPORT. What burns, wakes and losses of power leave of the fuses (R505, R508, R412).
-/

namespace Sys2Proof.Machine

open Sys2Proof

/-- Fuses keep what they hold. -/
theorem FuseMap.keeps_refl (a : FuseMap) : a.Keeps a :=
  ⟨rfl, rfl, rfl, rfl, rfl, fun _ h => h, fun _ _ h => h, Nat.le_refl _, List.prefix_refl _⟩

/-- Keeping is transitive. -/
theorem FuseMap.keeps_trans {a b c : FuseMap} (h : a.Keeps b) (g : b.Keeps c) : a.Keeps c :=
  ⟨g.1.trans h.1, g.2.trans h.2, g.3.trans h.3, g.4.trans h.4, g.5.trans h.5, fun d x => g.6 d (h.6 d x),
    fun i d x => g.7 i d (h.7 i d x), Nat.le_trans h.8 g.8, h.9.trans g.9⟩

/-- The code of a state stands for that state. -/
@[simp] theorem LifeCycle.ofCode_code (c : LifeCycle) : LifeCycle.ofCode c.code = c := by cases c <;> rfl

/-- A Fuse Map reads the life-cycle state burned into it. -/
@[simp] theorem FuseMap.withLife_lifeCycle (f : FuseMap) (c : LifeCycle) : (f.withLife c).lifeCycle = c := by cases c <;> rfl

/-- A change of the life cycle alone keeps every burned item. -/
theorem FuseMap.keeps_lifeCycle (a : FuseMap) (c : LifeCycle) : a.Keeps (a.withLife c) :=
  ⟨rfl, rfl, rfl, rfl, rfl, fun _ h => h, fun _ _ h => h, Nat.le_refl _, List.prefix_refl _⟩

/-- The end of a burn keeps what was burned before (R505). -/
theorem burned_keeps (b : Burn) (s : State) : s.lcc.fuses.Keeps (burned b s).lcc.fuses := by
  unfold burned
  rcases b with ⟨m, tgt, e⟩
  cases tgt with
  | lifeCycle n => exact FuseMap.keeps_refl _
  | fwKey d =>
    refine ⟨rfl, rfl, rfl, rfl, rfl, ?_, fun _ _ h => h, Nat.le_refl _, List.prefix_refl _⟩
    intro d' h; simp [h]
  | patternKey k d =>
    refine ⟨rfl, rfl, rfl, rfl, rfl, fun _ h => h, ?_, Nat.le_refl _, List.prefix_refl _⟩
    intro i d' h
    simp only [upd, List.getElem?_modify, h]
    split <;> simp
  | svn v => exact ⟨rfl, rfl, rfl, rfl, rfl, fun _ h => h, fun _ _ h => h, Nat.le_max_left _ _, List.prefix_refl _⟩

/-- A loss of power keeps what is burned. -/
theorem fusesAtLoss_keeps (s : State) : s.lcc.fuses.Keeps s.fusesAtLoss := by
  unfold State.fusesAtLoss; split
  · exact FuseMap.keeps_lifeCycle _ _
  · exact FuseMap.keeps_refl _

/-- The life cycle after a loss of power: the one in force, or one whose burn has ended. -/
theorem fusesAtLoss_life (s : State) :
    s.fusesAtLoss.lifeCycle = s.lcc.fuses.lifeCycle ∨ ∃ n, s.lcc.transition = some (n, s.fusesAtLoss.lifeCycle) := by
  unfold State.fusesAtLoss; split
  · rename_i n nx h; exact .inr ⟨n, by rw [h, FuseMap.withLife_lifeCycle]⟩
  · exact .inl rfl

/-- The burns of a wake only add entries to the field bank. -/
theorem burnRepairs_keeps (l : List Repair) (u : State) : u.lcc.fuses.Keeps (l.foldl burnRepair u).lcc.fuses := by
  induction l generalizing u with
  | nil => exact FuseMap.keeps_refl _
  | cons r l ih =>
    refine FuseMap.keeps_trans ?_ (ih _)
    unfold burnRepair; split
    · exact ⟨rfl, rfl, rfl, rfl, rfl, fun _ h => h, fun _ _ h => h, Nat.le_refl _, List.prefix_append _ _⟩
    · rw [(raiseAlarm_reported ..).lcc]; exact FuseMap.keeps_refl _

theorem burnRepairs_life (l : List Repair) (u : State) : (l.foldl burnRepair u).lcc.fuses.lifeCycle = u.lcc.fuses.lifeCycle := by
  induction l generalizing u with
  | nil => rfl
  | cons r l ih =>
    rw [List.foldl_cons, ih]
    unfold burnRepair; split
    · rfl
    · rw [(raiseAlarm_reported ..).lcc]

/-- A wake keeps what is burned, and the life cycle. -/
theorem wakeUp_keeps (b g m : Nat) (s : State) : s.lcc.fuses.Keeps (wakeUp b g m s).lcc.fuses := by
  unfold wakeUp; split
  · exact FuseMap.keeps_refl _
  · extract_lets fresh
    exact burnRepairs_keeps s.lcc.commitQueue fresh

theorem wakeUp_life (b g m : Nat) (s : State) : (wakeUp b g m s).lcc.fuses.lifeCycle = s.lcc.fuses.lifeCycle := by
  unfold wakeUp; split
  · rfl
  · extract_lets fresh
    exact burnRepairs_life s.lcc.commitQueue fresh

end Sys2Proof.Machine
end

