-- ==== Sys2Proof/Laws/Memory.lean ====
section
/-!
SUPPORT. The laws of the memory list: reads after writes, and that every operation keeps the canonical form.
-/

namespace Sys2Proof.Machine

open Sys2Proof

/-- The form of a list with a first entry: it is no default, it lies below the next, and the rest is in form. -/
theorem Memory.wf_cons (k : Nat) (v : Option Stored) (t : Memory) :
    Memory.wf ((k, v) :: t) = true ↔ v ≠ memDefault k ∧ (∀ c ∈ t.head?, k < c.1) ∧ Memory.wf t = true := by
  cases t with
  | nil => simp [Memory.wf]
  | cons c t => obtain ⟨k', v'⟩ := c; simp [Memory.wf, and_assoc]

/-- A list in form keeps its form without its first entry. -/
theorem Memory.wf_tail {c : Nat × Option Stored} {t : Memory} (h : Memory.wf (c :: t) = true) : Memory.wf t = true := by
  obtain ⟨k, v⟩ := c; exact ((Memory.wf_cons k v t).1 h).2.2

/-- The first key of a list in form lies below every other. -/
theorem Memory.head_lt {k : Nat} {v : Option Stored} {t : Memory} (h : Memory.wf ((k, v) :: t) = true) : ∀ c ∈ t, k < c.1 := by
  induction t generalizing k v with
  | nil => simp
  | cons c t ih =>
    obtain ⟨k', v'⟩ := c
    have h1 := ((Memory.wf_cons k v _).1 h).2
    have hk : k < k' := h1.1 (k', v') (by simp)
    intro d hd
    rcases List.mem_cons.1 hd with rfl | hd
    · exact hk
    · exact Nat.lt_trans hk (ih h1.2 d hd)

/-- A word whose key lies below every listed one holds the default. -/
theorem Memory.get_of_lt {m : Memory} {k : Nat} (h : ∀ c ∈ m, k < c.1) : Memory.get m k = memDefault k := by
  induction m with
  | nil => rfl
  | cons c t ih =>
    obtain ⟨a, v⟩ := c
    have := h (a, v) (by simp)
    simp only [Memory.get]
    rw [if_neg (by omega)]
    exact ih fun d hd => h d (List.mem_cons_of_mem _ hd)

/-- A word reads as it was put. -/
theorem Memory.get_put_self {m : Memory} (hm : Memory.wf m = true) (k : Nat) (v : Option Stored) :
    Memory.get (m.put k v) k = v := by
  induction m with
  | nil => unfold Memory.put; split <;> simp_all [Memory.get]
  | cons c t ih =>
    obtain ⟨a, x⟩ := c
    have hl := Memory.head_lt hm
    unfold Memory.put
    split
    · rename_i h
      split
      · rename_i hv
        simp only [Memory.get]
        rw [if_neg (by omega), hv]
        exact Memory.get_of_lt fun d hd => Nat.lt_trans h (hl d hd)
      · simp [Memory.get]
    · split
      · rename_i h
        subst h
        split
        · rename_i hv
          rw [hv]; exact Memory.get_of_lt hl
        · simp [Memory.get]
      · rename_i h
        simp only [Memory.get]
        rw [if_neg h]; exact ih (Memory.wf_tail hm)

/-- A put leaves every other word as it was. -/
theorem Memory.get_put_other (m : Memory) {k k' : Nat} (v : Option Stored) (hk : k ≠ k') :
    Memory.get (m.put k v) k' = Memory.get m k' := by
  induction m with
  | nil => unfold Memory.put; split <;> simp [Memory.get, hk]
  | cons c t ih =>
    obtain ⟨a, x⟩ := c
    unfold Memory.put
    split
    · split <;> simp [Memory.get, hk]
    · split
      · rename_i h
        subst h
        split <;> simp [Memory.get, hk]
      · simp only [Memory.get]; rw [ih]

/-- The keys of a put are the key put and the keys that were there. -/
theorem Memory.mem_put {m : Memory} {k : Nat} {v : Option Stored} {c : Nat × Option Stored} (h : c ∈ m.put k v) :
    c.1 = k ∨ c ∈ m := by
  induction m with
  | nil => unfold Memory.put at h; split at h <;> simp_all
  | cons d t ih =>
    obtain ⟨a, x⟩ := d
    unfold Memory.put at h
    split at h
    · split at h
      · exact .inr h
      · rcases List.mem_cons.1 h with rfl | h
        · exact .inl rfl
        · exact .inr h
    · split at h
      · split at h
        · exact .inr (List.mem_cons_of_mem _ h)
        · rcases List.mem_cons.1 h with rfl | h
          · exact .inl rfl
          · exact .inr (List.mem_cons_of_mem _ h)
      · rcases List.mem_cons.1 h with rfl | h
        · exact .inr (by simp)
        · rcases ih h with h | h
          · exact .inl h
          · exact .inr (List.mem_cons_of_mem _ h)

/-- A list in form, from a first entry below every entry of a list in form. -/
theorem Memory.wf_of_lt {k : Nat} {v : Option Stored} {t : Memory} (hv : v ≠ memDefault k) (hl : ∀ c ∈ t, k < c.1)
    (ht : Memory.wf t = true) : Memory.wf ((k, v) :: t) = true :=
  (Memory.wf_cons k v t).2 ⟨hv, fun c hc => hl c (List.mem_of_mem_head? hc), ht⟩

/-- A put keeps the form. -/
theorem Memory.wf_put {m : Memory} (hm : Memory.wf m = true) (k : Nat) (v : Option Stored) : Memory.wf (m.put k v) = true := by
  induction m with
  | nil => unfold Memory.put; split <;> simp_all [Memory.wf]
  | cons c t ih =>
    obtain ⟨a, x⟩ := c
    have hl := Memory.head_lt hm
    have ht := Memory.wf_tail hm
    have hx := ((Memory.wf_cons a x t).1 hm).1
    unfold Memory.put
    split
    · rename_i h
      split
      · exact hm
      · rename_i hv
        refine Memory.wf_of_lt hv ?_ hm
        intro d hd
        rcases List.mem_cons.1 hd with rfl | hd
        · exact h
        · exact Nat.lt_trans h (hl d hd)
    · rename_i h
      split
      · rename_i h'
        subst h'
        split
        · exact ht
        · rename_i hv; exact Memory.wf_of_lt hv hl ht
      · rename_i h'
        refine Memory.wf_of_lt hx ?_ (ih ht)
        intro d hd
        rcases Memory.mem_put hd with rfl | hd
        · omega
        · exact hl d hd

/-- Puts keep the form. -/
theorem Memory.wf_putAll {m : Memory} (hm : Memory.wf m = true) (l : List (Nat × Option Stored)) : Memory.wf (m.putAll l) = true := by
  induction l generalizing m with
  | nil => exact hm
  | cons c l ih => obtain ⟨k, v⟩ := c; exact ih (Memory.wf_put hm k v)

/-- A selection of entries keeps the form. -/
theorem Memory.wf_filter {m : Memory} (hm : Memory.wf m = true) (p : Nat × Option Stored → Bool) :
    Memory.wf (m.filter p) = true := by
  induction m with
  | nil => rfl
  | cons c t ih =>
    obtain ⟨k, v⟩ := c
    have ht := ih (Memory.wf_tail hm)
    by_cases hp : p (k, v) = true
    · rw [List.filter_cons_of_pos hp]
      exact Memory.wf_of_lt ((Memory.wf_cons k v t).1 hm).1 (fun c hc => Memory.head_lt hm c (List.mem_filter.1 hc).1) ht
    · rw [List.filter_cons_of_neg hp]; exact ht

/-- Two lists in form, the keys of the first below those of the second. -/
theorem Memory.wf_append {a b : Memory} (ha : Memory.wf a = true) (hb : Memory.wf b = true)
    (h : ∀ c ∈ a, ∀ d ∈ b, c.1 < d.1) : Memory.wf (a ++ b) = true := by
  induction a with
  | nil => exact hb
  | cons c t ih =>
    obtain ⟨k, v⟩ := c
    have hr := ih (Memory.wf_tail ha) fun c hc => h c (List.mem_cons_of_mem _ hc)
    refine Memory.wf_of_lt ((Memory.wf_cons k v t).1 ha).1 ?_ hr
    intro d hd
    rcases List.mem_append.1 hd with hd | hd
    · exact Memory.head_lt ha d hd
    · exact h (k, v) (by simp) d hd

/-- The entries of undefined contents lie in their span. -/
theorem undefinedCells_keys {k n : Nat} {c : Nat × Option Stored} (h : c ∈ undefinedCells k n) : k ≤ c.1 ∧ c.1 < k + n := by
  induction n generalizing k with
  | zero => simp [undefinedCells] at h
  | succ n ih =>
    unfold undefinedCells at h
    split at h
    · have := ih h; omega
    · rcases List.mem_cons.1 h with rfl | h
      · simp
      · have := ih h; omega

/-- The entries of undefined contents are in form. -/
theorem wf_undefinedCells (k n : Nat) : Memory.wf (undefinedCells k n) = true := by
  induction n generalizing k with
  | zero => rfl
  | succ n ih =>
    unfold undefinedCells
    split
    · exact ih (k + 1)
    · rename_i h
      refine Memory.wf_of_lt (fun hv => h hv.symm) ?_ (ih (k + 1))
      intro c hc
      have := undefinedCells_keys hc; omega

/-- Contents that become undefined keep the form. -/
theorem Memory.wf_forget {m : Memory} (hm : Memory.wf m = true) (k n : Nat) : Memory.wf (m.forget k n) = true := by
  unfold Memory.forget
  refine Memory.wf_append (Memory.wf_filter hm _) (Memory.wf_append (wf_undefinedCells k n) (Memory.wf_filter hm _) ?_) ?_
  · intro c hc d hd
    have h1 := undefinedCells_keys hc
    have h2 := (List.mem_filter.1 hd).2
    simp only [decide_eq_true_eq] at h2; omega
  · intro c hc d hd
    have h1 := (List.mem_filter.1 hc).2
    simp only [decide_eq_true_eq] at h1
    rcases List.mem_append.1 hd with hd | hd
    · have := undefinedCells_keys hd; omega
    · have h2 := (List.mem_filter.1 hd).2
      simp only [decide_eq_true_eq] at h2; omega

/-- The memory of reset is in form. -/
theorem reset_mem_wf : Memory.wf State.reset.mem = true := rfl

end Sys2Proof.Machine
end

