-- ==== Sys2Proof/Laws/Operations.lean ====
section
/-!
SUPPORT. The state that a command of the compute die gives, and the result of an operation on its item; updates of one element of a list, and of
one port or link.
-/

namespace Sys2Proof.Machine

open Sys2Proof

/-! ## The state that a command gives -/

/-- A command of the compute die gives the state of its effect. -/
theorem gives_onDevice {f : State → State} {s u : State} {i : Instr} (h : s.awake = true) (e : exec i s = onDevice f s) (hu : f s = u) :
    s.gives i u := by
  unfold State.gives; rw [e]; unfold onDevice; rw [h]; simp [hu]

/-- A command of the compute die gives some state. -/
theorem exists_gives_onDevice {f : State → State} {s : State} {i : Instr} (h : s.awake = true) (e : exec i s = onDevice f s) :
    s.gives i (f s) := gives_onDevice h e rfl

/-- A periodic command between its multiples changes nothing. -/
theorem gives_onCount_idle {f : State → State} {s : State} {i : Instr} {n : Nat} (h : s.awake = true) (e : exec i s = onCount n f s)
    (hn : s.now % n ≠ 0) : s.gives i s := by
  unfold State.gives; rw [e]; unfold onCount onDevice; rw [h]; simp [hn]

/-- A periodic command at a multiple has its effect. -/
theorem gives_onCount {f : State → State} {s u : State} {i : Instr} {n : Nat} (h : s.awake = true) (e : exec i s = onCount n f s)
    (hn : s.now % n = 0) (hu : f s = u) : s.gives i u := by
  unfold State.gives; rw [e]; unfold onCount onDevice; rw [h]; simp [hn, hu]

/-- A RUNNING item has the number under which it is found, and its opcode. -/
theorem runningItem_spec {s : State} {id op : Nat} {it : Item} {j : Job} (h : s.runningItem id op = some (it, j)) :
    s.item? id = some it ∧ it.id = id ∧ it.phase = .running ∧ it.result = none ∧ Entry.op it.entry = op ∧ s.jobIn it.slot = some j := by
  unfold State.runningItem at h
  cases hi : s.item? id with
  | none => simp [hi] at h
  | some x =>
    rw [hi] at h; simp only at h
    split at h
    · rename_i hc
      cases hj : s.jobIn x.slot with
      | none => simp [hj] at h
      | some y =>
        rw [hj] at h; simp only [Option.map_some, Option.some.injEq, Prod.mk.injEq] at h
        obtain ⟨rfl, rfl⟩ := h
        have h2 := List.find?_some hi
        simp only [Bool.and_eq_true, beq_iff_eq] at hc h2
        exact ⟨rfl, h2, hc.1.1, hc.1.2, hc.2, hj⟩
    · simp at h

/-- An operation that answers a result gives it to its item. -/
theorem results_onItem {s u : State} {i : Instr} {id op : Nat} {r : Reach} {f : Item → Job → State → State × Option Result} {it : Item} {j : Job}
    {x : Result} (h : s.awake = true) (e : exec i s = onItem id op r f s) (hr : s.runningItem id op = some (it, j)) (hf : f it j s = (u, some x)) :
    s.results i id x (within r s u) := by
  unfold State.results; rw [e]; unfold onItem onDevice; rw [h]; simp [runOp, reaching, hr, hf]

/-- An operation that answers none leaves its item running. -/
theorem staysRunning_onItem {s u : State} {i : Instr} {id op : Nat} {r : Reach} {f : Item → Job → State → State × Option Result} {it : Item} {j : Job}
    (h : s.awake = true) (e : exec i s = onItem id op r f s) (hr : s.runningItem id op = some (it, j)) (hf : f it j s = (u, none)) :
    s.staysRunning i (within r s u) := by
  unfold State.staysRunning; rw [e]; unfold onItem onDevice; rw [h]; simp [runOp, reaching, hr, hf]

/-- The same for an operation that one form of an entry selects. -/
theorem results_onForm {s u : State} {i : Instr} {id op : Nat} {p : Entry → Bool} {r : Reach} {f : Item → Job → State → State × Option Result}
    {it : Item} {j : Job} {x : Result} (h : s.awake = true) (e : exec i s = onForm id op p r f s) (hr : s.runningItem id op = some (it, j))
    (hp : p it.entry = true) (hf : f it j s = (u, some x)) : s.results i id x (within r s u) := by
  unfold State.results; rw [e]; unfold onForm onDevice; rw [h]; simp [runOp, reaching, hr, hf, hp]

theorem staysRunning_onForm {s u : State} {i : Instr} {id op : Nat} {p : Entry → Bool} {r : Reach} {f : Item → Job → State → State × Option Result}
    {it : Item} {j : Job} (h : s.awake = true) (e : exec i s = onForm id op p r f s) (hr : s.runningItem id op = some (it, j))
    (hp : p it.entry = true) (hf : f it j s = (u, none)) : s.staysRunning i (within r s u) := by
  unfold State.staysRunning; rw [e]; unfold onForm onDevice; rw [h]; simp [runOp, reaching, hr, hf, hp]

/-- What lies within every reach stands when nothing changed. -/
@[simp] theorem within_self (r : Reach) (s : State) : within r s s = s := by
  cases s; simp [within]

/-! ## Updates of one element -/

/-- Two updates of one element are one. -/
theorem upd_upd {α : Type} (l : List α) (n : Nat) (f g : α → α) : upd (upd l n f) n g = upd l n (fun x => g (f x)) := by
  unfold upd; apply List.ext_getElem?; intro i; simp only [List.getElem?_modify]; cases l[i]? <;> simp; split <;> rfl

@[simp] theorem length_upd {α : Type} (l : List α) (n : Nat) (f : α → α) : (upd l n f).length = l.length := by simp [upd]

theorem nth_upd {α : Type} (l : List α) (n : Nat) (f : α → α) (d : α) (h : n < l.length) : nth (upd l n f) n d = f (nth l n d) := by
  simp [nth, upd, List.getD_eq_getElem?_getD, h]

theorem nth_upd_ne {α : Type} (l : List α) (n m : Nat) (f : α → α) (d : α) (h : m ≠ n) : nth (upd l n f) m d = nth l m d := by
  simp [nth, upd, List.getD_eq_getElem?_getD, Ne.symm h]

/-! ## Ports and links -/

theorem setPort_setPort (n : Nat) (f g : FiPort → FiPort) (s : State) : setPort n g (setPort n f s) = setPort n (fun x => g (f x)) s := by
  simp [setPort, upd_upd]

theorem setFp_setFp (n : Nat) (f g : FieldPort → FieldPort) (s : State) : setFp n g (setFp n f s) = setFp n (fun x => g (f x)) s := by
  simp [setFp, upd_upd]

theorem setPeer_setPeer (n : Nat) (f g : PeerLink → PeerLink) (s : State) : setPeer n g (setPeer n f s) = setPeer n (fun x => g (f x)) s := by
  simp [setPeer, upd_upd]

theorem fiPort_setPort {n : Nat} {s : State} (f : FiPort → FiPort) (h : n < s.fi.ports.length) : (setPort n f s).fiPort n = f (s.fiPort n) := by
  simp [State.fiPort, setPort, nth_upd, h]

theorem port_setFp {n : Nat} {s : State} (f : FieldPort → FieldPort) (h : n < s.fp.length) : (setFp n f s).port n = f (s.port n) := by
  simp [State.port, setFp, nth_upd, h]

theorem peer_setPeer {n : Nat} {s : State} (f : PeerLink → PeerLink) (h : n < s.pl.links.length) : (setPeer n f s).peer n = f (s.peer n) := by
  simp [State.peer, setPeer, nth_upd, h]

theorem fiPort_setPort_ne {n m : Nat} (s : State) (f : FiPort → FiPort) (h : m ≠ n) : (setPort n f s).fiPort m = s.fiPort m := by
  simp [State.fiPort, setPort, nth_upd_ne _ _ _ _ _ h]

theorem port_setFp_ne {n m : Nat} (s : State) (f : FieldPort → FieldPort) (h : m ≠ n) : (setFp n f s).port m = s.port m := by
  simp [State.port, setFp, nth_upd_ne _ _ _ _ _ h]

theorem peer_setPeer_ne {n m : Nat} (s : State) (f : PeerLink → PeerLink) (h : m ≠ n) : (setPeer n f s).peer m = s.peer m := by
  simp [State.peer, setPeer, nth_upd_ne _ _ _ _ _ h]

end Sys2Proof.Machine
end

