-- ==== Sys2Proof/Laws/Signature.lean ====
section
/-!
SUPPORT. ML-DSA-65 verification (R137, R509) under the public key of zeros: of a response of zeros the commitment is zero, whatever the matrix.
-/

namespace Sys2Proof.Machine

open Sys2Proof

/-- Every coefficient is zero. -/
def ZeroPoly (f : DsaPoly) : Prop := ∀ x ∈ f, x = 0

theorem zero_replicate (n : Nat) : ZeroPoly (List.replicate n 0) := fun _ h => (List.mem_replicate.mp h).2

theorem zero_polyMul (f : DsaPoly) {g : DsaPoly} (h : ZeroPoly g) : ZeroPoly (polyMul f g) := by
  intro x hx
  simp only [polyMul, List.mem_map, Prod.exists] at hx
  obtain ⟨a, b, hab, rfl⟩ := hx
  simp [h b (List.of_mem_zip hab).2]

theorem zero_polyAdd {f g : DsaPoly} (hf : ZeroPoly f) (hg : ZeroPoly g) : ZeroPoly (polyAdd f g) := by
  intro x hx
  simp only [polyAdd, List.mem_map, Prod.exists] at hx
  obtain ⟨a, b, hab, rfl⟩ := hx
  simp [hf a (List.of_mem_zip hab).1, hg b (List.of_mem_zip hab).2]

theorem zero_polySub {f g : DsaPoly} (hf : ZeroPoly f) (hg : ZeroPoly g) : ZeroPoly (polySub f g) := by
  intro x hx
  simp only [polySub, List.mem_map, Prod.exists] at hx
  obtain ⟨a, b, hab, rfl⟩ := hx
  simp [hf a (List.of_mem_zip hab).1, hg b (List.of_mem_zip hab).2]

theorem zero_sum (l : List DsaPoly) (h : ∀ f ∈ l, ZeroPoly f) {g : DsaPoly} (hg : ZeroPoly g) : ZeroPoly (l.foldl polyAdd g) := by
  induction l generalizing g with
  | nil => exact hg
  | cons f t ih => exact ih (fun x hx => h x (List.mem_cons_of_mem _ hx)) (zero_polyAdd hg (h f (List.mem_cons_self ..)))

theorem zero_eval (z : Nat) {f : DsaPoly} (h : ZeroPoly f) : f.foldr (fun c acc => (c + z * acc) % dsaQ) 0 = 0 := by
  induction f with
  | nil => rfl
  | cons c t ih =>
    rw [List.foldr_cons, ih fun x hx => h x (List.mem_cons_of_mem _ hx), h c (List.mem_cons_self ..)]
    simp

theorem zero_ntt {f : DsaPoly} (h : ZeroPoly f) : ZeroPoly (ntt f) := by
  intro x hx
  simp only [ntt, List.mem_map] at hx
  obtain ⟨i, -, rfl⟩ := hx
  exact zero_eval _ h

theorem zero_weighted (w : Nat → Nat) (l : List (Nat × Nat)) (h : ∀ x ∈ l, x.1 = 0) :
    l.foldl (fun acc (v, i) => (acc + v * w i) % dsaQ) 0 = 0 := by
  induction l with
  | nil => rfl
  | cons a t ih =>
    simp only [List.foldl_cons, h a (List.mem_cons_self ..), Nat.zero_mul, Nat.add_zero, Nat.zero_mod]
    exact ih fun x hx => h x (List.mem_cons_of_mem _ hx)

/-- The inverse transform of zeros is the zero polynomial. -/
theorem inverseNtt_zero {f : DsaPoly} (h : ZeroPoly f) : inverseNtt f = List.replicate 256 0 := by
  have e : ∀ j, 8347681 * ((f.zip (List.range 256)).foldl (fun acc (v, i) => (acc + v * powMod dsaQ 1753 ((512 - nttExponent i) * j % 512)) % dsaQ) 0) % dsaQ = 0 := by
    intro j
    rw [zero_weighted (fun i => powMod dsaQ 1753 ((512 - nttExponent i) * j % 512)) _ fun x hx => h _ (List.of_mem_zip hx).1]
    rfl
  unfold inverseNtt
  simp only [e]
  rw [List.map_const', List.length_range]

theorem ofBytes_zeros (n : Nat) : ofBytes (List.replicate n 0) = 0 := by
  induction n with
  | zero => rfl
  | succ n ih =>
    rw [List.replicate_succ, ofBytes, ih]
    rfl

theorem zero_unpack (w n : Nat) (g : Nat → Nat) (hg : g 0 = 0) : ZeroPoly ((unpackBits w (List.replicate n 0)).map g) := by
  intro x hx
  simp only [unpackBits, ofBytes_zeros, List.mem_map, bits] at hx
  obtain ⟨a, ⟨i, -, rfl⟩, rfl⟩ := hx
  simpa using hg

/-- The public key of zeros. -/
def zeroKey : List Byte := List.replicate 1952 0

/-- A response of zeros leaves every row of the commitment zero. -/
theorem commitmentRow_zero (z : List DsaPoly) (c : DsaPoly) (hz : ∀ j, ZeroPoly (nth z j [])) (i : Nat) :
    commitmentRow zeroKey z c [] i = List.replicate 256 0 := by
  unfold commitmentRow
  have ht : ZeroPoly (ntt ((unpackBits 10 ((zeroKey.drop (32 + 320 * i)).take 320)).map (8192 * · % dsaQ))) := by
    unfold zeroKey
    rw [List.drop_replicate, List.take_replicate]
    exact zero_ntt (zero_unpack _ _ _ rfl)
  have ha : ZeroPoly (((List.range 5).map fun j => polyMul (matrixEntry (zeroKey.take 32) i j) (nth z j [])).foldl polyAdd (List.replicate 256 0)) := by
    refine zero_sum _ ?_ (zero_replicate _)
    intro f hf
    simp only [List.mem_map] at hf
    obtain ⟨j, -, rfl⟩ := hf
    exact zero_polyMul _ (hz j)
  simp only [inverseNtt_zero (zero_polySub ha (zero_polyMul c ht))]
  decide +kernel

theorem nth_replicate {α : Type} (n i : Nat) (a d : α) : nth (List.replicate n a) i d = if i < n then a else d := by
  unfold nth
  rw [List.getD_eq_getElem?_getD, List.getElem?_replicate]
  split <;> rfl

/-- A response of zeros without hints verifies under the key of zeros where its digest is that of the zero commitment. -/
theorem mlDsaVerify_zero {message sig : List Byte} (hl : sig.length = 3309)
    (hh : hintPlaces ((sig.drop 3248).map (·.toNat)) = some (List.replicate 6 [])) (hc : (challenge (sig.take 48)).isSome = true)
    (hz : (List.range 5).map (responsePoly sig) = List.replicate 5 (List.replicate 256 0))
    (hd : shake256 48 (shake256 64 (shake256 64 zeroKey ++ [0, 0] ++ message) ++ List.replicate 768 0) = sig.take 48) :
    mlDsaVerify zeroKey message sig = true := by
  obtain ⟨c, hc⟩ := Option.isSome_iff_exists.mp hc
  have zero : ZeroPoly (ntt (polyOfInts (List.replicate 256 0))) := zero_ntt (by
    intro x hx
    simp only [polyOfInts, List.map_replicate] at hx
    exact (List.mem_replicate.mp hx).2)
  have hn : ∀ j, ZeroPoly (nth ((List.replicate 5 (List.replicate 256 (0 : Int))).map fun p => ntt (polyOfInts p)) j []) := by
    intro j
    rw [List.map_replicate, nth_replicate]
    split
    · exact zero
    · exact fun _ h => absurd h List.not_mem_nil
  have row : ∀ i, i ∈ List.range 6 → commitmentBytes (commitmentRow zeroKey
      ((List.replicate 5 (List.replicate 256 (0 : Int))).map fun p => ntt (polyOfInts p)) (ntt (polyOfInts c)) (nth (List.replicate 6 []) i []) i) =
      List.replicate 128 0 := by
    intro i _
    rw [nth_replicate, ite_self, commitmentRow_zero _ _ hn]
    decide +kernel
  unfold mlDsaVerify
  simp only [hh, hc, hz]
  rw [List.flatMap_def, List.map_congr_left row, show ((List.range 6).map fun _ => List.replicate 128 (0 : Byte)).flatten = List.replicate 768 0 by decide +kernel,
    hd, hl, show zeroKey.length = 1952 from List.length_replicate]
  simp only [beq_self_eq_true, Bool.and_true, Bool.true_and]
  decide +kernel

/-- A response of zeros and no hint: 1,280 fields of 20 bits that stand for zero, and 61 bytes of zero. -/
def zeroResponse : List Byte := (List.replicate 640 [0, 0, 8, 0, 0x80]).flatten ++ List.replicate 61 0

theorem toBytes_length (n k : Nat) : (toBytes n k).length = k := by simp [toBytes]

/-- A signature that begins with 48 bytes leaves the same response whatever they are. -/
theorem drop_zeroResponse {c : List Byte} (hc : c.length = 48) (n : Nat) : (c ++ zeroResponse).drop (48 + n) = zeroResponse.drop n := by
  rw [← hc, List.drop_append, List.drop_eq_nil_of_le (by omega), Nat.add_sub_cancel_left, List.nil_append]

/-- Under the key of zeros, a zero response verifies every message whose commitment digest it begins with. -/
theorem zeroResponse_verifies {message c : List Byte} (hn : c.length = 48) (hc : (challenge c).isSome = true)
    (hd : shake256 48 (shake256 64 (shake256 64 zeroKey ++ [0, 0] ++ message) ++ List.replicate 768 0) = c) :
    mlDsaVerify zeroKey message (c ++ zeroResponse) = true := by
  have start : (c ++ zeroResponse).take 48 = c := by rw [← hn, List.take_left]
  refine mlDsaVerify_zero ?_ ?_ (by rw [start]; exact hc) ?_ (by rw [start]; exact hd)
  · rw [List.length_append, hn, show zeroResponse.length = 3261 by decide +kernel]
  · rw [drop_zeroResponse hn 3200]
    decide +kernel
  · rw [show responsePoly (c ++ zeroResponse) = fun i => (unpackBits 20 ((zeroResponse.drop (640 * i)).take 640)).map fun (v : Nat) => 524288 - (v : Int) from
      funext fun i => by rw [responsePoly, drop_zeroResponse hn]]
    decide +kernel

end Sys2Proof.Machine
end

