-- ==== Sys2Proof/Laws/State.lean ====
section
/-!
SUPPORT. One lemma for each field of State under each named update of State, true by rfl: no later proof unfolds a record update.
-/

namespace Sys2Proof.Machine

open Sys2Proof


/-! ## setItem -/

@[simp] theorem State.setItem_grade (s : State) (id : Nat) (f : Item → Item) : (s.setItem id f).grade = s.grade := rfl
@[simp] theorem State.setItem_power (s : State) (id : Nat) (f : Item → Item) : (s.setItem id f).power = s.power := rfl
@[simp] theorem State.setItem_porstLow (s : State) (id : Nat) (f : Item → Item) : (s.setItem id f).porstLow = s.porstLow := rfl
@[simp] theorem State.setItem_boardPos (s : State) (id : Nat) (f : Item → Item) : (s.setItem id f).boardPos = s.boardPos := rfl
@[simp] theorem State.setItem_gcnt (s : State) (id : Nat) (f : Item → Item) : (s.setItem id f).gcnt = s.gcnt := rfl
@[simp] theorem State.setItem_mem (s : State) (id : Nat) (f : Item → Item) : (s.setItem id f).mem = s.mem := rfl
@[simp] theorem State.setItem_memCtl (s : State) (id : Nat) (f : Item → Item) : (s.setItem id f).memCtl = s.memCtl := rfl
@[simp] theorem State.setItem_me (s : State) (id : Nat) (f : Item → Item) : (s.setItem id f).me = s.me := rfl
@[simp] theorem State.setItem_mbx (s : State) (id : Nat) (f : Item → Item) : (s.setItem id f).mbx = s.mbx := rfl
@[simp] theorem State.setItem_accepted (s : State) (id : Nat) (f : Item → Item) : (s.setItem id f).accepted = s.accepted := rfl
@[simp] theorem State.setItem_serialBusy (s : State) (id : Nat) (f : Item → Item) : (s.setItem id f).serialBusy = s.serialBusy := rfl
@[simp] theorem State.setItem_disarming (s : State) (id : Nat) (f : Item → Item) : (s.setItem id f).disarming = s.disarming := rfl
@[simp] theorem State.setItem_arming (s : State) (id : Nat) (f : Item → Item) : (s.setItem id f).arming = s.arming := rfl
@[simp] theorem State.setItem_rings (s : State) (id : Nat) (f : Item → Item) : (s.setItem id f).rings = s.rings := rfl
@[simp] theorem State.setItem_alarms (s : State) (id : Nat) (f : Item → Item) : (s.setItem id f).alarms = s.alarms := rfl
@[simp] theorem State.setItem_firstFault (s : State) (id : Nat) (f : Item → Item) : (s.setItem id f).firstFault = s.firstFault := rfl
@[simp] theorem State.setItem_link (s : State) (id : Nat) (f : Item → Item) : (s.setItem id f).link = s.link := rfl
@[simp] theorem State.setItem_hiLatches (s : State) (id : Nat) (f : Item → Item) : (s.setItem id f).hiLatches = s.hiLatches := rfl
@[simp] theorem State.setItem_reply (s : State) (id : Nat) (f : Item → Item) : (s.setItem id f).reply = s.reply := rfl
@[simp] theorem State.setItem_fw (s : State) (id : Nat) (f : Item → Item) : (s.setItem id f).fw = s.fw := rfl
@[simp] theorem State.setItem_line (s : State) (id : Nat) (f : Item → Item) : (s.setItem id f).line = s.line := rfl
@[simp] theorem State.setItem_jobs (s : State) (id : Nat) (f : Item → Item) : (s.setItem id f).jobs = s.jobs := rfl
@[simp] theorem State.setItem_devBlocks (s : State) (id : Nat) (f : Item → Item) : (s.setItem id f).devBlocks = s.devBlocks := rfl
@[simp] theorem State.setItem_claims (s : State) (id : Nat) (f : Item → Item) : (s.setItem id f).claims = s.claims := rfl
@[simp] theorem State.setItem_shu (s : State) (id : Nat) (f : Item → Item) : (s.setItem id f).shu = { s.shu with items := s.shu.items.map fun it => if it.id == id then f it else it } := rfl
@[simp] theorem State.setItem_pat (s : State) (id : Nat) (f : Item → Item) : (s.setItem id f).pat = s.pat := rfl
@[simp] theorem State.setItem_occ (s : State) (id : Nat) (f : Item → Item) : (s.setItem id f).occ = s.occ := rfl
@[simp] theorem State.setItem_trc (s : State) (id : Nat) (f : Item → Item) : (s.setItem id f).trc = s.trc := rfl
@[simp] theorem State.setItem_chans (s : State) (id : Nat) (f : Item → Item) : (s.setItem id f).chans = s.chans := rfl
@[simp] theorem State.setItem_pse (s : State) (id : Nat) (f : Item → Item) : (s.setItem id f).pse = s.pse := rfl
@[simp] theorem State.setItem_se (s : State) (id : Nat) (f : Item → Item) : (s.setItem id f).se = s.se := rfl
@[simp] theorem State.setItem_te (s : State) (id : Nat) (f : Item → Item) : (s.setItem id f).te = s.te := rfl
@[simp] theorem State.setItem_tks (s : State) (id : Nat) (f : Item → Item) : (s.setItem id f).tks = s.tks := rfl
@[simp] theorem State.setItem_fi (s : State) (id : Nat) (f : Item → Item) : (s.setItem id f).fi = s.fi := rfl
@[simp] theorem State.setItem_sheet (s : State) (id : Nat) (f : Item → Item) : (s.setItem id f).sheet = s.sheet := rfl
@[simp] theorem State.setItem_sm (s : State) (id : Nat) (f : Item → Item) : (s.setItem id f).sm = s.sm := rfl
@[simp] theorem State.setItem_fp (s : State) (id : Nat) (f : Item → Item) : (s.setItem id f).fp = s.fp := rfl
@[simp] theorem State.setItem_pl (s : State) (id : Nat) (f : Item → Item) : (s.setItem id f).pl = s.pl := rfl
@[simp] theorem State.setItem_lcc (s : State) (id : Nat) (f : Item → Item) : (s.setItem id f).lcc = s.lcc := rfl
@[simp] theorem State.setItem_freeCount (s : State) (id : Nat) (f : Item → Item) : (s.setItem id f).freeCount = s.freeCount := rfl
@[simp] theorem State.setItem_upset (s : State) (id : Nat) (f : Item → Item) : (s.setItem id f).upset = s.upset := rfl
@[simp] theorem State.setItem_note (s : State) (id : Nat) (f : Item → Item) : (s.setItem id f).note = s.note := rfl
@[simp] theorem State.setItem_pending (s : State) (id : Nat) (f : Item → Item) : (s.setItem id f).pending = s.pending := rfl

/-! ## setResult -/

@[simp] theorem setResult_grade (id : Nat) (r : Result) (s : State) : (setResult id r s).grade = s.grade := rfl
@[simp] theorem setResult_power (id : Nat) (r : Result) (s : State) : (setResult id r s).power = s.power := rfl
@[simp] theorem setResult_porstLow (id : Nat) (r : Result) (s : State) : (setResult id r s).porstLow = s.porstLow := rfl
@[simp] theorem setResult_boardPos (id : Nat) (r : Result) (s : State) : (setResult id r s).boardPos = s.boardPos := rfl
@[simp] theorem setResult_gcnt (id : Nat) (r : Result) (s : State) : (setResult id r s).gcnt = s.gcnt := rfl
@[simp] theorem setResult_mem (id : Nat) (r : Result) (s : State) : (setResult id r s).mem = s.mem := rfl
@[simp] theorem setResult_memCtl (id : Nat) (r : Result) (s : State) : (setResult id r s).memCtl = s.memCtl := rfl
@[simp] theorem setResult_me (id : Nat) (r : Result) (s : State) : (setResult id r s).me = s.me := rfl
@[simp] theorem setResult_mbx (id : Nat) (r : Result) (s : State) : (setResult id r s).mbx = s.mbx := rfl
@[simp] theorem setResult_accepted (id : Nat) (r : Result) (s : State) : (setResult id r s).accepted = s.accepted := rfl
@[simp] theorem setResult_serialBusy (id : Nat) (r : Result) (s : State) : (setResult id r s).serialBusy = s.serialBusy := rfl
@[simp] theorem setResult_disarming (id : Nat) (r : Result) (s : State) : (setResult id r s).disarming = s.disarming := rfl
@[simp] theorem setResult_arming (id : Nat) (r : Result) (s : State) : (setResult id r s).arming = s.arming := rfl
@[simp] theorem setResult_rings (id : Nat) (r : Result) (s : State) : (setResult id r s).rings = s.rings := rfl
@[simp] theorem setResult_alarms (id : Nat) (r : Result) (s : State) : (setResult id r s).alarms = s.alarms := rfl
@[simp] theorem setResult_firstFault (id : Nat) (r : Result) (s : State) : (setResult id r s).firstFault = s.firstFault := rfl
@[simp] theorem setResult_link (id : Nat) (r : Result) (s : State) : (setResult id r s).link = s.link := rfl
@[simp] theorem setResult_hiLatches (id : Nat) (r : Result) (s : State) : (setResult id r s).hiLatches = s.hiLatches := rfl
@[simp] theorem setResult_reply (id : Nat) (r : Result) (s : State) : (setResult id r s).reply = s.reply := rfl
@[simp] theorem setResult_fw (id : Nat) (r : Result) (s : State) : (setResult id r s).fw = s.fw := rfl
@[simp] theorem setResult_line (id : Nat) (r : Result) (s : State) : (setResult id r s).line = s.line := rfl
@[simp] theorem setResult_jobs (id : Nat) (r : Result) (s : State) : (setResult id r s).jobs = s.jobs := rfl
@[simp] theorem setResult_devBlocks (id : Nat) (r : Result) (s : State) : (setResult id r s).devBlocks = s.devBlocks := rfl
@[simp] theorem setResult_claims (id : Nat) (r : Result) (s : State) : (setResult id r s).claims = s.claims := rfl
@[simp] theorem setResult_shu (id : Nat) (r : Result) (s : State) : (setResult id r s).shu = { s.shu with items := s.shu.items.map fun it => if it.id == id then { it with result := some r } else it } := rfl
@[simp] theorem setResult_pat (id : Nat) (r : Result) (s : State) : (setResult id r s).pat = s.pat := rfl
@[simp] theorem setResult_occ (id : Nat) (r : Result) (s : State) : (setResult id r s).occ = s.occ := rfl
@[simp] theorem setResult_trc (id : Nat) (r : Result) (s : State) : (setResult id r s).trc = s.trc := rfl
@[simp] theorem setResult_chans (id : Nat) (r : Result) (s : State) : (setResult id r s).chans = s.chans := rfl
@[simp] theorem setResult_pse (id : Nat) (r : Result) (s : State) : (setResult id r s).pse = s.pse := rfl
@[simp] theorem setResult_se (id : Nat) (r : Result) (s : State) : (setResult id r s).se = s.se := rfl
@[simp] theorem setResult_te (id : Nat) (r : Result) (s : State) : (setResult id r s).te = s.te := rfl
@[simp] theorem setResult_tks (id : Nat) (r : Result) (s : State) : (setResult id r s).tks = s.tks := rfl
@[simp] theorem setResult_fi (id : Nat) (r : Result) (s : State) : (setResult id r s).fi = s.fi := rfl
@[simp] theorem setResult_sheet (id : Nat) (r : Result) (s : State) : (setResult id r s).sheet = s.sheet := rfl
@[simp] theorem setResult_sm (id : Nat) (r : Result) (s : State) : (setResult id r s).sm = s.sm := rfl
@[simp] theorem setResult_fp (id : Nat) (r : Result) (s : State) : (setResult id r s).fp = s.fp := rfl
@[simp] theorem setResult_pl (id : Nat) (r : Result) (s : State) : (setResult id r s).pl = s.pl := rfl
@[simp] theorem setResult_lcc (id : Nat) (r : Result) (s : State) : (setResult id r s).lcc = s.lcc := rfl
@[simp] theorem setResult_freeCount (id : Nat) (r : Result) (s : State) : (setResult id r s).freeCount = s.freeCount := rfl
@[simp] theorem setResult_upset (id : Nat) (r : Result) (s : State) : (setResult id r s).upset = s.upset := rfl
@[simp] theorem setResult_note (id : Nat) (r : Result) (s : State) : (setResult id r s).note = s.note := rfl
@[simp] theorem setResult_pending (id : Nat) (r : Result) (s : State) : (setResult id r s).pending = s.pending := rfl

/-! ## sendSignal -/

@[simp] theorem sendSignal_grade (m : SignalMsg) (s : State) : (sendSignal m s).grade = s.grade := rfl
@[simp] theorem sendSignal_power (m : SignalMsg) (s : State) : (sendSignal m s).power = s.power := rfl
@[simp] theorem sendSignal_porstLow (m : SignalMsg) (s : State) : (sendSignal m s).porstLow = s.porstLow := rfl
@[simp] theorem sendSignal_boardPos (m : SignalMsg) (s : State) : (sendSignal m s).boardPos = s.boardPos := rfl
@[simp] theorem sendSignal_gcnt (m : SignalMsg) (s : State) : (sendSignal m s).gcnt = s.gcnt := rfl
@[simp] theorem sendSignal_mem (m : SignalMsg) (s : State) : (sendSignal m s).mem = s.mem := rfl
@[simp] theorem sendSignal_memCtl (m : SignalMsg) (s : State) : (sendSignal m s).memCtl = s.memCtl := rfl
@[simp] theorem sendSignal_me (m : SignalMsg) (s : State) : (sendSignal m s).me = s.me := rfl
@[simp] theorem sendSignal_mbx (m : SignalMsg) (s : State) : (sendSignal m s).mbx = s.mbx := rfl
@[simp] theorem sendSignal_accepted (m : SignalMsg) (s : State) : (sendSignal m s).accepted = s.accepted := rfl
@[simp] theorem sendSignal_serialBusy (m : SignalMsg) (s : State) : (sendSignal m s).serialBusy = s.serialBusy := rfl
@[simp] theorem sendSignal_disarming (m : SignalMsg) (s : State) : (sendSignal m s).disarming = s.disarming := rfl
@[simp] theorem sendSignal_arming (m : SignalMsg) (s : State) : (sendSignal m s).arming = s.arming := rfl
@[simp] theorem sendSignal_rings (m : SignalMsg) (s : State) : (sendSignal m s).rings = s.rings := rfl
@[simp] theorem sendSignal_alarms (m : SignalMsg) (s : State) : (sendSignal m s).alarms = s.alarms := rfl
@[simp] theorem sendSignal_firstFault (m : SignalMsg) (s : State) : (sendSignal m s).firstFault = s.firstFault := rfl
@[simp] theorem sendSignal_link (m : SignalMsg) (s : State) : (sendSignal m s).link = s.link := rfl
@[simp] theorem sendSignal_hiLatches (m : SignalMsg) (s : State) : (sendSignal m s).hiLatches = s.hiLatches := rfl
@[simp] theorem sendSignal_reply (m : SignalMsg) (s : State) : (sendSignal m s).reply = s.reply := rfl
@[simp] theorem sendSignal_fw (m : SignalMsg) (s : State) : (sendSignal m s).fw = s.fw := rfl
@[simp] theorem sendSignal_line (m : SignalMsg) (s : State) : (sendSignal m s).line = s.line := rfl
@[simp] theorem sendSignal_jobs (m : SignalMsg) (s : State) : (sendSignal m s).jobs = s.jobs := rfl
@[simp] theorem sendSignal_devBlocks (m : SignalMsg) (s : State) : (sendSignal m s).devBlocks = s.devBlocks := rfl
@[simp] theorem sendSignal_claims (m : SignalMsg) (s : State) : (sendSignal m s).claims = s.claims := rfl
@[simp] theorem sendSignal_shu (m : SignalMsg) (s : State) : (sendSignal m s).shu = { s.shu with signals := s.shu.signals ++ [m] } := rfl
@[simp] theorem sendSignal_pat (m : SignalMsg) (s : State) : (sendSignal m s).pat = s.pat := rfl
@[simp] theorem sendSignal_occ (m : SignalMsg) (s : State) : (sendSignal m s).occ = s.occ := rfl
@[simp] theorem sendSignal_trc (m : SignalMsg) (s : State) : (sendSignal m s).trc = s.trc := rfl
@[simp] theorem sendSignal_chans (m : SignalMsg) (s : State) : (sendSignal m s).chans = s.chans := rfl
@[simp] theorem sendSignal_pse (m : SignalMsg) (s : State) : (sendSignal m s).pse = s.pse := rfl
@[simp] theorem sendSignal_se (m : SignalMsg) (s : State) : (sendSignal m s).se = s.se := rfl
@[simp] theorem sendSignal_te (m : SignalMsg) (s : State) : (sendSignal m s).te = s.te := rfl
@[simp] theorem sendSignal_tks (m : SignalMsg) (s : State) : (sendSignal m s).tks = s.tks := rfl
@[simp] theorem sendSignal_fi (m : SignalMsg) (s : State) : (sendSignal m s).fi = s.fi := rfl
@[simp] theorem sendSignal_sheet (m : SignalMsg) (s : State) : (sendSignal m s).sheet = s.sheet := rfl
@[simp] theorem sendSignal_sm (m : SignalMsg) (s : State) : (sendSignal m s).sm = s.sm := rfl
@[simp] theorem sendSignal_fp (m : SignalMsg) (s : State) : (sendSignal m s).fp = s.fp := rfl
@[simp] theorem sendSignal_pl (m : SignalMsg) (s : State) : (sendSignal m s).pl = s.pl := rfl
@[simp] theorem sendSignal_lcc (m : SignalMsg) (s : State) : (sendSignal m s).lcc = s.lcc := rfl
@[simp] theorem sendSignal_freeCount (m : SignalMsg) (s : State) : (sendSignal m s).freeCount = s.freeCount := rfl
@[simp] theorem sendSignal_upset (m : SignalMsg) (s : State) : (sendSignal m s).upset = s.upset := rfl
@[simp] theorem sendSignal_note (m : SignalMsg) (s : State) : (sendSignal m s).note = s.note := rfl
@[simp] theorem sendSignal_pending (m : SignalMsg) (s : State) : (sendSignal m s).pending = s.pending := rfl

/-! ## notePeaks -/

@[simp] theorem notePeaks_grade (s : State) : (notePeaks s).grade = s.grade := rfl
@[simp] theorem notePeaks_power (s : State) : (notePeaks s).power = s.power := rfl
@[simp] theorem notePeaks_porstLow (s : State) : (notePeaks s).porstLow = s.porstLow := rfl
@[simp] theorem notePeaks_boardPos (s : State) : (notePeaks s).boardPos = s.boardPos := rfl
@[simp] theorem notePeaks_gcnt (s : State) : (notePeaks s).gcnt = s.gcnt := rfl
@[simp] theorem notePeaks_mem (s : State) : (notePeaks s).mem = s.mem := rfl
@[simp] theorem notePeaks_memCtl (s : State) : (notePeaks s).memCtl = s.memCtl := rfl
@[simp] theorem notePeaks_me (s : State) : (notePeaks s).me = s.me := rfl
@[simp] theorem notePeaks_mbx (s : State) : (notePeaks s).mbx = s.mbx := rfl
@[simp] theorem notePeaks_accepted (s : State) : (notePeaks s).accepted = s.accepted := rfl
@[simp] theorem notePeaks_serialBusy (s : State) : (notePeaks s).serialBusy = s.serialBusy := rfl
@[simp] theorem notePeaks_disarming (s : State) : (notePeaks s).disarming = s.disarming := rfl
@[simp] theorem notePeaks_arming (s : State) : (notePeaks s).arming = s.arming := rfl
@[simp] theorem notePeaks_rings (s : State) : (notePeaks s).rings = s.rings := rfl
@[simp] theorem notePeaks_alarms (s : State) : (notePeaks s).alarms = s.alarms := rfl
@[simp] theorem notePeaks_firstFault (s : State) : (notePeaks s).firstFault = s.firstFault := rfl
@[simp] theorem notePeaks_link (s : State) : (notePeaks s).link = s.link := rfl
@[simp] theorem notePeaks_hiLatches (s : State) : (notePeaks s).hiLatches = s.hiLatches := rfl
@[simp] theorem notePeaks_reply (s : State) : (notePeaks s).reply = s.reply := rfl
@[simp] theorem notePeaks_fw (s : State) : (notePeaks s).fw = s.fw := rfl
@[simp] theorem notePeaks_line (s : State) : (notePeaks s).line = s.line := rfl
@[simp] theorem notePeaks_jobs (s : State) : (notePeaks s).jobs = s.jobs := rfl
@[simp] theorem notePeaks_devBlocks (s : State) : (notePeaks s).devBlocks = s.devBlocks := rfl
@[simp] theorem notePeaks_claims (s : State) : (notePeaks s).claims = s.claims := rfl
@[simp] theorem notePeaks_shu (s : State) : (notePeaks s).shu = { s.shu with peakReady := max s.shu.peakReady s.generalReady, peakMatch := max s.shu.peakMatch s.generalMatch } := rfl
@[simp] theorem notePeaks_pat (s : State) : (notePeaks s).pat = s.pat := rfl
@[simp] theorem notePeaks_occ (s : State) : (notePeaks s).occ = s.occ := rfl
@[simp] theorem notePeaks_trc (s : State) : (notePeaks s).trc = s.trc := rfl
@[simp] theorem notePeaks_chans (s : State) : (notePeaks s).chans = s.chans := rfl
@[simp] theorem notePeaks_pse (s : State) : (notePeaks s).pse = s.pse := rfl
@[simp] theorem notePeaks_se (s : State) : (notePeaks s).se = s.se := rfl
@[simp] theorem notePeaks_te (s : State) : (notePeaks s).te = s.te := rfl
@[simp] theorem notePeaks_tks (s : State) : (notePeaks s).tks = s.tks := rfl
@[simp] theorem notePeaks_fi (s : State) : (notePeaks s).fi = s.fi := rfl
@[simp] theorem notePeaks_sheet (s : State) : (notePeaks s).sheet = s.sheet := rfl
@[simp] theorem notePeaks_sm (s : State) : (notePeaks s).sm = s.sm := rfl
@[simp] theorem notePeaks_fp (s : State) : (notePeaks s).fp = s.fp := rfl
@[simp] theorem notePeaks_pl (s : State) : (notePeaks s).pl = s.pl := rfl
@[simp] theorem notePeaks_lcc (s : State) : (notePeaks s).lcc = s.lcc := rfl
@[simp] theorem notePeaks_freeCount (s : State) : (notePeaks s).freeCount = s.freeCount := rfl
@[simp] theorem notePeaks_upset (s : State) : (notePeaks s).upset = s.upset := rfl
@[simp] theorem notePeaks_note (s : State) : (notePeaks s).note = s.note := rfl
@[simp] theorem notePeaks_pending (s : State) : (notePeaks s).pending = s.pending := rfl

/-! ## setJob -/

@[simp] theorem State.setJob_grade (s : State) (slot : Nat) (f : Job → Job) : (s.setJob slot f).grade = s.grade := rfl
@[simp] theorem State.setJob_power (s : State) (slot : Nat) (f : Job → Job) : (s.setJob slot f).power = s.power := rfl
@[simp] theorem State.setJob_porstLow (s : State) (slot : Nat) (f : Job → Job) : (s.setJob slot f).porstLow = s.porstLow := rfl
@[simp] theorem State.setJob_boardPos (s : State) (slot : Nat) (f : Job → Job) : (s.setJob slot f).boardPos = s.boardPos := rfl
@[simp] theorem State.setJob_gcnt (s : State) (slot : Nat) (f : Job → Job) : (s.setJob slot f).gcnt = s.gcnt := rfl
@[simp] theorem State.setJob_mem (s : State) (slot : Nat) (f : Job → Job) : (s.setJob slot f).mem = s.mem := rfl
@[simp] theorem State.setJob_memCtl (s : State) (slot : Nat) (f : Job → Job) : (s.setJob slot f).memCtl = s.memCtl := rfl
@[simp] theorem State.setJob_me (s : State) (slot : Nat) (f : Job → Job) : (s.setJob slot f).me = s.me := rfl
@[simp] theorem State.setJob_mbx (s : State) (slot : Nat) (f : Job → Job) : (s.setJob slot f).mbx = s.mbx := rfl
@[simp] theorem State.setJob_accepted (s : State) (slot : Nat) (f : Job → Job) : (s.setJob slot f).accepted = s.accepted := rfl
@[simp] theorem State.setJob_serialBusy (s : State) (slot : Nat) (f : Job → Job) : (s.setJob slot f).serialBusy = s.serialBusy := rfl
@[simp] theorem State.setJob_disarming (s : State) (slot : Nat) (f : Job → Job) : (s.setJob slot f).disarming = s.disarming := rfl
@[simp] theorem State.setJob_arming (s : State) (slot : Nat) (f : Job → Job) : (s.setJob slot f).arming = s.arming := rfl
@[simp] theorem State.setJob_rings (s : State) (slot : Nat) (f : Job → Job) : (s.setJob slot f).rings = s.rings := rfl
@[simp] theorem State.setJob_alarms (s : State) (slot : Nat) (f : Job → Job) : (s.setJob slot f).alarms = s.alarms := rfl
@[simp] theorem State.setJob_firstFault (s : State) (slot : Nat) (f : Job → Job) : (s.setJob slot f).firstFault = s.firstFault := rfl
@[simp] theorem State.setJob_link (s : State) (slot : Nat) (f : Job → Job) : (s.setJob slot f).link = s.link := rfl
@[simp] theorem State.setJob_hiLatches (s : State) (slot : Nat) (f : Job → Job) : (s.setJob slot f).hiLatches = s.hiLatches := rfl
@[simp] theorem State.setJob_reply (s : State) (slot : Nat) (f : Job → Job) : (s.setJob slot f).reply = s.reply := rfl
@[simp] theorem State.setJob_fw (s : State) (slot : Nat) (f : Job → Job) : (s.setJob slot f).fw = s.fw := rfl
@[simp] theorem State.setJob_line (s : State) (slot : Nat) (f : Job → Job) : (s.setJob slot f).line = s.line := rfl
@[simp] theorem State.setJob_jobs (s : State) (slot : Nat) (f : Job → Job) : (s.setJob slot f).jobs = upd s.jobs slot (·.map f) := rfl
@[simp] theorem State.setJob_devBlocks (s : State) (slot : Nat) (f : Job → Job) : (s.setJob slot f).devBlocks = s.devBlocks := rfl
@[simp] theorem State.setJob_claims (s : State) (slot : Nat) (f : Job → Job) : (s.setJob slot f).claims = s.claims := rfl
@[simp] theorem State.setJob_shu (s : State) (slot : Nat) (f : Job → Job) : (s.setJob slot f).shu = s.shu := rfl
@[simp] theorem State.setJob_pat (s : State) (slot : Nat) (f : Job → Job) : (s.setJob slot f).pat = s.pat := rfl
@[simp] theorem State.setJob_occ (s : State) (slot : Nat) (f : Job → Job) : (s.setJob slot f).occ = s.occ := rfl
@[simp] theorem State.setJob_trc (s : State) (slot : Nat) (f : Job → Job) : (s.setJob slot f).trc = s.trc := rfl
@[simp] theorem State.setJob_chans (s : State) (slot : Nat) (f : Job → Job) : (s.setJob slot f).chans = s.chans := rfl
@[simp] theorem State.setJob_pse (s : State) (slot : Nat) (f : Job → Job) : (s.setJob slot f).pse = s.pse := rfl
@[simp] theorem State.setJob_se (s : State) (slot : Nat) (f : Job → Job) : (s.setJob slot f).se = s.se := rfl
@[simp] theorem State.setJob_te (s : State) (slot : Nat) (f : Job → Job) : (s.setJob slot f).te = s.te := rfl
@[simp] theorem State.setJob_tks (s : State) (slot : Nat) (f : Job → Job) : (s.setJob slot f).tks = s.tks := rfl
@[simp] theorem State.setJob_fi (s : State) (slot : Nat) (f : Job → Job) : (s.setJob slot f).fi = s.fi := rfl
@[simp] theorem State.setJob_sheet (s : State) (slot : Nat) (f : Job → Job) : (s.setJob slot f).sheet = s.sheet := rfl
@[simp] theorem State.setJob_sm (s : State) (slot : Nat) (f : Job → Job) : (s.setJob slot f).sm = s.sm := rfl
@[simp] theorem State.setJob_fp (s : State) (slot : Nat) (f : Job → Job) : (s.setJob slot f).fp = s.fp := rfl
@[simp] theorem State.setJob_pl (s : State) (slot : Nat) (f : Job → Job) : (s.setJob slot f).pl = s.pl := rfl
@[simp] theorem State.setJob_lcc (s : State) (slot : Nat) (f : Job → Job) : (s.setJob slot f).lcc = s.lcc := rfl
@[simp] theorem State.setJob_freeCount (s : State) (slot : Nat) (f : Job → Job) : (s.setJob slot f).freeCount = s.freeCount := rfl
@[simp] theorem State.setJob_upset (s : State) (slot : Nat) (f : Job → Job) : (s.setJob slot f).upset = s.upset := rfl
@[simp] theorem State.setJob_note (s : State) (slot : Nat) (f : Job → Job) : (s.setJob slot f).note = s.note := rfl
@[simp] theorem State.setJob_pending (s : State) (slot : Nat) (f : Job → Job) : (s.setJob slot f).pending = s.pending := rfl

/-! ## dueVector -/

@[simp] theorem dueVector_grade (v : Nat) (s : State) : (dueVector v s).grade = s.grade := rfl
@[simp] theorem dueVector_power (v : Nat) (s : State) : (dueVector v s).power = s.power := rfl
@[simp] theorem dueVector_porstLow (v : Nat) (s : State) : (dueVector v s).porstLow = s.porstLow := rfl
@[simp] theorem dueVector_boardPos (v : Nat) (s : State) : (dueVector v s).boardPos = s.boardPos := rfl
@[simp] theorem dueVector_gcnt (v : Nat) (s : State) : (dueVector v s).gcnt = s.gcnt := rfl
@[simp] theorem dueVector_mem (v : Nat) (s : State) : (dueVector v s).mem = s.mem := rfl
@[simp] theorem dueVector_memCtl (v : Nat) (s : State) : (dueVector v s).memCtl = s.memCtl := rfl
@[simp] theorem dueVector_me (v : Nat) (s : State) : (dueVector v s).me = s.me := rfl
@[simp] theorem dueVector_mbx (v : Nat) (s : State) : (dueVector v s).mbx = s.mbx := rfl
@[simp] theorem dueVector_accepted (v : Nat) (s : State) : (dueVector v s).accepted = s.accepted := rfl
@[simp] theorem dueVector_serialBusy (v : Nat) (s : State) : (dueVector v s).serialBusy = s.serialBusy := rfl
@[simp] theorem dueVector_disarming (v : Nat) (s : State) : (dueVector v s).disarming = s.disarming := rfl
@[simp] theorem dueVector_arming (v : Nat) (s : State) : (dueVector v s).arming = s.arming := rfl
@[simp] theorem dueVector_rings (v : Nat) (s : State) : (dueVector v s).rings = s.rings := rfl
@[simp] theorem dueVector_alarms (v : Nat) (s : State) : (dueVector v s).alarms = s.alarms := rfl
@[simp] theorem dueVector_firstFault (v : Nat) (s : State) : (dueVector v s).firstFault = s.firstFault := rfl
@[simp] theorem dueVector_link (v : Nat) (s : State) : (dueVector v s).link = { s.link with vectors := upd s.link.vectors v fun x => { x with due := true } } := rfl
@[simp] theorem dueVector_hiLatches (v : Nat) (s : State) : (dueVector v s).hiLatches = s.hiLatches := rfl
@[simp] theorem dueVector_reply (v : Nat) (s : State) : (dueVector v s).reply = s.reply := rfl
@[simp] theorem dueVector_fw (v : Nat) (s : State) : (dueVector v s).fw = s.fw := rfl
@[simp] theorem dueVector_line (v : Nat) (s : State) : (dueVector v s).line = s.line := rfl
@[simp] theorem dueVector_jobs (v : Nat) (s : State) : (dueVector v s).jobs = s.jobs := rfl
@[simp] theorem dueVector_devBlocks (v : Nat) (s : State) : (dueVector v s).devBlocks = s.devBlocks := rfl
@[simp] theorem dueVector_claims (v : Nat) (s : State) : (dueVector v s).claims = s.claims := rfl
@[simp] theorem dueVector_shu (v : Nat) (s : State) : (dueVector v s).shu = s.shu := rfl
@[simp] theorem dueVector_pat (v : Nat) (s : State) : (dueVector v s).pat = s.pat := rfl
@[simp] theorem dueVector_occ (v : Nat) (s : State) : (dueVector v s).occ = s.occ := rfl
@[simp] theorem dueVector_trc (v : Nat) (s : State) : (dueVector v s).trc = s.trc := rfl
@[simp] theorem dueVector_chans (v : Nat) (s : State) : (dueVector v s).chans = s.chans := rfl
@[simp] theorem dueVector_pse (v : Nat) (s : State) : (dueVector v s).pse = s.pse := rfl
@[simp] theorem dueVector_se (v : Nat) (s : State) : (dueVector v s).se = s.se := rfl
@[simp] theorem dueVector_te (v : Nat) (s : State) : (dueVector v s).te = s.te := rfl
@[simp] theorem dueVector_tks (v : Nat) (s : State) : (dueVector v s).tks = s.tks := rfl
@[simp] theorem dueVector_fi (v : Nat) (s : State) : (dueVector v s).fi = s.fi := rfl
@[simp] theorem dueVector_sheet (v : Nat) (s : State) : (dueVector v s).sheet = s.sheet := rfl
@[simp] theorem dueVector_sm (v : Nat) (s : State) : (dueVector v s).sm = s.sm := rfl
@[simp] theorem dueVector_fp (v : Nat) (s : State) : (dueVector v s).fp = s.fp := rfl
@[simp] theorem dueVector_pl (v : Nat) (s : State) : (dueVector v s).pl = s.pl := rfl
@[simp] theorem dueVector_lcc (v : Nat) (s : State) : (dueVector v s).lcc = s.lcc := rfl
@[simp] theorem dueVector_freeCount (v : Nat) (s : State) : (dueVector v s).freeCount = s.freeCount := rfl
@[simp] theorem dueVector_upset (v : Nat) (s : State) : (dueVector v s).upset = s.upset := rfl
@[simp] theorem dueVector_note (v : Nat) (s : State) : (dueVector v s).note = s.note := rfl
@[simp] theorem dueVector_pending (v : Nat) (s : State) : (dueVector v s).pending = s.pending := rfl

/-! ## setChan -/

@[simp] theorem setChan_grade (n : Nat) (f : Channel → Channel) (s : State) : (setChan n f s).grade = s.grade := rfl
@[simp] theorem setChan_power (n : Nat) (f : Channel → Channel) (s : State) : (setChan n f s).power = s.power := rfl
@[simp] theorem setChan_porstLow (n : Nat) (f : Channel → Channel) (s : State) : (setChan n f s).porstLow = s.porstLow := rfl
@[simp] theorem setChan_boardPos (n : Nat) (f : Channel → Channel) (s : State) : (setChan n f s).boardPos = s.boardPos := rfl
@[simp] theorem setChan_gcnt (n : Nat) (f : Channel → Channel) (s : State) : (setChan n f s).gcnt = s.gcnt := rfl
@[simp] theorem setChan_mem (n : Nat) (f : Channel → Channel) (s : State) : (setChan n f s).mem = s.mem := rfl
@[simp] theorem setChan_memCtl (n : Nat) (f : Channel → Channel) (s : State) : (setChan n f s).memCtl = s.memCtl := rfl
@[simp] theorem setChan_me (n : Nat) (f : Channel → Channel) (s : State) : (setChan n f s).me = s.me := rfl
@[simp] theorem setChan_mbx (n : Nat) (f : Channel → Channel) (s : State) : (setChan n f s).mbx = s.mbx := rfl
@[simp] theorem setChan_accepted (n : Nat) (f : Channel → Channel) (s : State) : (setChan n f s).accepted = s.accepted := rfl
@[simp] theorem setChan_serialBusy (n : Nat) (f : Channel → Channel) (s : State) : (setChan n f s).serialBusy = s.serialBusy := rfl
@[simp] theorem setChan_disarming (n : Nat) (f : Channel → Channel) (s : State) : (setChan n f s).disarming = s.disarming := rfl
@[simp] theorem setChan_arming (n : Nat) (f : Channel → Channel) (s : State) : (setChan n f s).arming = s.arming := rfl
@[simp] theorem setChan_rings (n : Nat) (f : Channel → Channel) (s : State) : (setChan n f s).rings = s.rings := rfl
@[simp] theorem setChan_alarms (n : Nat) (f : Channel → Channel) (s : State) : (setChan n f s).alarms = s.alarms := rfl
@[simp] theorem setChan_firstFault (n : Nat) (f : Channel → Channel) (s : State) : (setChan n f s).firstFault = s.firstFault := rfl
@[simp] theorem setChan_link (n : Nat) (f : Channel → Channel) (s : State) : (setChan n f s).link = s.link := rfl
@[simp] theorem setChan_hiLatches (n : Nat) (f : Channel → Channel) (s : State) : (setChan n f s).hiLatches = s.hiLatches := rfl
@[simp] theorem setChan_reply (n : Nat) (f : Channel → Channel) (s : State) : (setChan n f s).reply = s.reply := rfl
@[simp] theorem setChan_fw (n : Nat) (f : Channel → Channel) (s : State) : (setChan n f s).fw = s.fw := rfl
@[simp] theorem setChan_line (n : Nat) (f : Channel → Channel) (s : State) : (setChan n f s).line = s.line := rfl
@[simp] theorem setChan_jobs (n : Nat) (f : Channel → Channel) (s : State) : (setChan n f s).jobs = s.jobs := rfl
@[simp] theorem setChan_devBlocks (n : Nat) (f : Channel → Channel) (s : State) : (setChan n f s).devBlocks = s.devBlocks := rfl
@[simp] theorem setChan_claims (n : Nat) (f : Channel → Channel) (s : State) : (setChan n f s).claims = s.claims := rfl
@[simp] theorem setChan_shu (n : Nat) (f : Channel → Channel) (s : State) : (setChan n f s).shu = s.shu := rfl
@[simp] theorem setChan_pat (n : Nat) (f : Channel → Channel) (s : State) : (setChan n f s).pat = s.pat := rfl
@[simp] theorem setChan_occ (n : Nat) (f : Channel → Channel) (s : State) : (setChan n f s).occ = s.occ := rfl
@[simp] theorem setChan_trc (n : Nat) (f : Channel → Channel) (s : State) : (setChan n f s).trc = s.trc := rfl
@[simp] theorem setChan_chans (n : Nat) (f : Channel → Channel) (s : State) : (setChan n f s).chans = upd s.chans n f := rfl
@[simp] theorem setChan_pse (n : Nat) (f : Channel → Channel) (s : State) : (setChan n f s).pse = s.pse := rfl
@[simp] theorem setChan_se (n : Nat) (f : Channel → Channel) (s : State) : (setChan n f s).se = s.se := rfl
@[simp] theorem setChan_te (n : Nat) (f : Channel → Channel) (s : State) : (setChan n f s).te = s.te := rfl
@[simp] theorem setChan_tks (n : Nat) (f : Channel → Channel) (s : State) : (setChan n f s).tks = s.tks := rfl
@[simp] theorem setChan_fi (n : Nat) (f : Channel → Channel) (s : State) : (setChan n f s).fi = s.fi := rfl
@[simp] theorem setChan_sheet (n : Nat) (f : Channel → Channel) (s : State) : (setChan n f s).sheet = s.sheet := rfl
@[simp] theorem setChan_sm (n : Nat) (f : Channel → Channel) (s : State) : (setChan n f s).sm = s.sm := rfl
@[simp] theorem setChan_fp (n : Nat) (f : Channel → Channel) (s : State) : (setChan n f s).fp = s.fp := rfl
@[simp] theorem setChan_pl (n : Nat) (f : Channel → Channel) (s : State) : (setChan n f s).pl = s.pl := rfl
@[simp] theorem setChan_lcc (n : Nat) (f : Channel → Channel) (s : State) : (setChan n f s).lcc = s.lcc := rfl
@[simp] theorem setChan_freeCount (n : Nat) (f : Channel → Channel) (s : State) : (setChan n f s).freeCount = s.freeCount := rfl
@[simp] theorem setChan_upset (n : Nat) (f : Channel → Channel) (s : State) : (setChan n f s).upset = s.upset := rfl
@[simp] theorem setChan_note (n : Nat) (f : Channel → Channel) (s : State) : (setChan n f s).note = s.note := rfl
@[simp] theorem setChan_pending (n : Nat) (f : Channel → Channel) (s : State) : (setChan n f s).pending = s.pending := rfl

/-! ## setFp -/

@[simp] theorem setFp_grade (n : Nat) (f : FieldPort → FieldPort) (s : State) : (setFp n f s).grade = s.grade := rfl
@[simp] theorem setFp_power (n : Nat) (f : FieldPort → FieldPort) (s : State) : (setFp n f s).power = s.power := rfl
@[simp] theorem setFp_porstLow (n : Nat) (f : FieldPort → FieldPort) (s : State) : (setFp n f s).porstLow = s.porstLow := rfl
@[simp] theorem setFp_boardPos (n : Nat) (f : FieldPort → FieldPort) (s : State) : (setFp n f s).boardPos = s.boardPos := rfl
@[simp] theorem setFp_gcnt (n : Nat) (f : FieldPort → FieldPort) (s : State) : (setFp n f s).gcnt = s.gcnt := rfl
@[simp] theorem setFp_mem (n : Nat) (f : FieldPort → FieldPort) (s : State) : (setFp n f s).mem = s.mem := rfl
@[simp] theorem setFp_memCtl (n : Nat) (f : FieldPort → FieldPort) (s : State) : (setFp n f s).memCtl = s.memCtl := rfl
@[simp] theorem setFp_me (n : Nat) (f : FieldPort → FieldPort) (s : State) : (setFp n f s).me = s.me := rfl
@[simp] theorem setFp_mbx (n : Nat) (f : FieldPort → FieldPort) (s : State) : (setFp n f s).mbx = s.mbx := rfl
@[simp] theorem setFp_accepted (n : Nat) (f : FieldPort → FieldPort) (s : State) : (setFp n f s).accepted = s.accepted := rfl
@[simp] theorem setFp_serialBusy (n : Nat) (f : FieldPort → FieldPort) (s : State) : (setFp n f s).serialBusy = s.serialBusy := rfl
@[simp] theorem setFp_disarming (n : Nat) (f : FieldPort → FieldPort) (s : State) : (setFp n f s).disarming = s.disarming := rfl
@[simp] theorem setFp_arming (n : Nat) (f : FieldPort → FieldPort) (s : State) : (setFp n f s).arming = s.arming := rfl
@[simp] theorem setFp_rings (n : Nat) (f : FieldPort → FieldPort) (s : State) : (setFp n f s).rings = s.rings := rfl
@[simp] theorem setFp_alarms (n : Nat) (f : FieldPort → FieldPort) (s : State) : (setFp n f s).alarms = s.alarms := rfl
@[simp] theorem setFp_firstFault (n : Nat) (f : FieldPort → FieldPort) (s : State) : (setFp n f s).firstFault = s.firstFault := rfl
@[simp] theorem setFp_link (n : Nat) (f : FieldPort → FieldPort) (s : State) : (setFp n f s).link = s.link := rfl
@[simp] theorem setFp_hiLatches (n : Nat) (f : FieldPort → FieldPort) (s : State) : (setFp n f s).hiLatches = s.hiLatches := rfl
@[simp] theorem setFp_reply (n : Nat) (f : FieldPort → FieldPort) (s : State) : (setFp n f s).reply = s.reply := rfl
@[simp] theorem setFp_fw (n : Nat) (f : FieldPort → FieldPort) (s : State) : (setFp n f s).fw = s.fw := rfl
@[simp] theorem setFp_line (n : Nat) (f : FieldPort → FieldPort) (s : State) : (setFp n f s).line = s.line := rfl
@[simp] theorem setFp_jobs (n : Nat) (f : FieldPort → FieldPort) (s : State) : (setFp n f s).jobs = s.jobs := rfl
@[simp] theorem setFp_devBlocks (n : Nat) (f : FieldPort → FieldPort) (s : State) : (setFp n f s).devBlocks = s.devBlocks := rfl
@[simp] theorem setFp_claims (n : Nat) (f : FieldPort → FieldPort) (s : State) : (setFp n f s).claims = s.claims := rfl
@[simp] theorem setFp_shu (n : Nat) (f : FieldPort → FieldPort) (s : State) : (setFp n f s).shu = s.shu := rfl
@[simp] theorem setFp_pat (n : Nat) (f : FieldPort → FieldPort) (s : State) : (setFp n f s).pat = s.pat := rfl
@[simp] theorem setFp_occ (n : Nat) (f : FieldPort → FieldPort) (s : State) : (setFp n f s).occ = s.occ := rfl
@[simp] theorem setFp_trc (n : Nat) (f : FieldPort → FieldPort) (s : State) : (setFp n f s).trc = s.trc := rfl
@[simp] theorem setFp_chans (n : Nat) (f : FieldPort → FieldPort) (s : State) : (setFp n f s).chans = s.chans := rfl
@[simp] theorem setFp_pse (n : Nat) (f : FieldPort → FieldPort) (s : State) : (setFp n f s).pse = s.pse := rfl
@[simp] theorem setFp_se (n : Nat) (f : FieldPort → FieldPort) (s : State) : (setFp n f s).se = s.se := rfl
@[simp] theorem setFp_te (n : Nat) (f : FieldPort → FieldPort) (s : State) : (setFp n f s).te = s.te := rfl
@[simp] theorem setFp_tks (n : Nat) (f : FieldPort → FieldPort) (s : State) : (setFp n f s).tks = s.tks := rfl
@[simp] theorem setFp_fi (n : Nat) (f : FieldPort → FieldPort) (s : State) : (setFp n f s).fi = s.fi := rfl
@[simp] theorem setFp_sheet (n : Nat) (f : FieldPort → FieldPort) (s : State) : (setFp n f s).sheet = s.sheet := rfl
@[simp] theorem setFp_sm (n : Nat) (f : FieldPort → FieldPort) (s : State) : (setFp n f s).sm = s.sm := rfl
@[simp] theorem setFp_fp (n : Nat) (f : FieldPort → FieldPort) (s : State) : (setFp n f s).fp = upd s.fp n f := rfl
@[simp] theorem setFp_pl (n : Nat) (f : FieldPort → FieldPort) (s : State) : (setFp n f s).pl = s.pl := rfl
@[simp] theorem setFp_lcc (n : Nat) (f : FieldPort → FieldPort) (s : State) : (setFp n f s).lcc = s.lcc := rfl
@[simp] theorem setFp_freeCount (n : Nat) (f : FieldPort → FieldPort) (s : State) : (setFp n f s).freeCount = s.freeCount := rfl
@[simp] theorem setFp_upset (n : Nat) (f : FieldPort → FieldPort) (s : State) : (setFp n f s).upset = s.upset := rfl
@[simp] theorem setFp_note (n : Nat) (f : FieldPort → FieldPort) (s : State) : (setFp n f s).note = s.note := rfl
@[simp] theorem setFp_pending (n : Nat) (f : FieldPort → FieldPort) (s : State) : (setFp n f s).pending = s.pending := rfl

/-! ## setPeer -/

@[simp] theorem setPeer_grade (n : Nat) (f : PeerLink → PeerLink) (s : State) : (setPeer n f s).grade = s.grade := rfl
@[simp] theorem setPeer_power (n : Nat) (f : PeerLink → PeerLink) (s : State) : (setPeer n f s).power = s.power := rfl
@[simp] theorem setPeer_porstLow (n : Nat) (f : PeerLink → PeerLink) (s : State) : (setPeer n f s).porstLow = s.porstLow := rfl
@[simp] theorem setPeer_boardPos (n : Nat) (f : PeerLink → PeerLink) (s : State) : (setPeer n f s).boardPos = s.boardPos := rfl
@[simp] theorem setPeer_gcnt (n : Nat) (f : PeerLink → PeerLink) (s : State) : (setPeer n f s).gcnt = s.gcnt := rfl
@[simp] theorem setPeer_mem (n : Nat) (f : PeerLink → PeerLink) (s : State) : (setPeer n f s).mem = s.mem := rfl
@[simp] theorem setPeer_memCtl (n : Nat) (f : PeerLink → PeerLink) (s : State) : (setPeer n f s).memCtl = s.memCtl := rfl
@[simp] theorem setPeer_me (n : Nat) (f : PeerLink → PeerLink) (s : State) : (setPeer n f s).me = s.me := rfl
@[simp] theorem setPeer_mbx (n : Nat) (f : PeerLink → PeerLink) (s : State) : (setPeer n f s).mbx = s.mbx := rfl
@[simp] theorem setPeer_accepted (n : Nat) (f : PeerLink → PeerLink) (s : State) : (setPeer n f s).accepted = s.accepted := rfl
@[simp] theorem setPeer_serialBusy (n : Nat) (f : PeerLink → PeerLink) (s : State) : (setPeer n f s).serialBusy = s.serialBusy := rfl
@[simp] theorem setPeer_disarming (n : Nat) (f : PeerLink → PeerLink) (s : State) : (setPeer n f s).disarming = s.disarming := rfl
@[simp] theorem setPeer_arming (n : Nat) (f : PeerLink → PeerLink) (s : State) : (setPeer n f s).arming = s.arming := rfl
@[simp] theorem setPeer_rings (n : Nat) (f : PeerLink → PeerLink) (s : State) : (setPeer n f s).rings = s.rings := rfl
@[simp] theorem setPeer_alarms (n : Nat) (f : PeerLink → PeerLink) (s : State) : (setPeer n f s).alarms = s.alarms := rfl
@[simp] theorem setPeer_firstFault (n : Nat) (f : PeerLink → PeerLink) (s : State) : (setPeer n f s).firstFault = s.firstFault := rfl
@[simp] theorem setPeer_link (n : Nat) (f : PeerLink → PeerLink) (s : State) : (setPeer n f s).link = s.link := rfl
@[simp] theorem setPeer_hiLatches (n : Nat) (f : PeerLink → PeerLink) (s : State) : (setPeer n f s).hiLatches = s.hiLatches := rfl
@[simp] theorem setPeer_reply (n : Nat) (f : PeerLink → PeerLink) (s : State) : (setPeer n f s).reply = s.reply := rfl
@[simp] theorem setPeer_fw (n : Nat) (f : PeerLink → PeerLink) (s : State) : (setPeer n f s).fw = s.fw := rfl
@[simp] theorem setPeer_line (n : Nat) (f : PeerLink → PeerLink) (s : State) : (setPeer n f s).line = s.line := rfl
@[simp] theorem setPeer_jobs (n : Nat) (f : PeerLink → PeerLink) (s : State) : (setPeer n f s).jobs = s.jobs := rfl
@[simp] theorem setPeer_devBlocks (n : Nat) (f : PeerLink → PeerLink) (s : State) : (setPeer n f s).devBlocks = s.devBlocks := rfl
@[simp] theorem setPeer_claims (n : Nat) (f : PeerLink → PeerLink) (s : State) : (setPeer n f s).claims = s.claims := rfl
@[simp] theorem setPeer_shu (n : Nat) (f : PeerLink → PeerLink) (s : State) : (setPeer n f s).shu = s.shu := rfl
@[simp] theorem setPeer_pat (n : Nat) (f : PeerLink → PeerLink) (s : State) : (setPeer n f s).pat = s.pat := rfl
@[simp] theorem setPeer_occ (n : Nat) (f : PeerLink → PeerLink) (s : State) : (setPeer n f s).occ = s.occ := rfl
@[simp] theorem setPeer_trc (n : Nat) (f : PeerLink → PeerLink) (s : State) : (setPeer n f s).trc = s.trc := rfl
@[simp] theorem setPeer_chans (n : Nat) (f : PeerLink → PeerLink) (s : State) : (setPeer n f s).chans = s.chans := rfl
@[simp] theorem setPeer_pse (n : Nat) (f : PeerLink → PeerLink) (s : State) : (setPeer n f s).pse = s.pse := rfl
@[simp] theorem setPeer_se (n : Nat) (f : PeerLink → PeerLink) (s : State) : (setPeer n f s).se = s.se := rfl
@[simp] theorem setPeer_te (n : Nat) (f : PeerLink → PeerLink) (s : State) : (setPeer n f s).te = s.te := rfl
@[simp] theorem setPeer_tks (n : Nat) (f : PeerLink → PeerLink) (s : State) : (setPeer n f s).tks = s.tks := rfl
@[simp] theorem setPeer_fi (n : Nat) (f : PeerLink → PeerLink) (s : State) : (setPeer n f s).fi = s.fi := rfl
@[simp] theorem setPeer_sheet (n : Nat) (f : PeerLink → PeerLink) (s : State) : (setPeer n f s).sheet = s.sheet := rfl
@[simp] theorem setPeer_sm (n : Nat) (f : PeerLink → PeerLink) (s : State) : (setPeer n f s).sm = s.sm := rfl
@[simp] theorem setPeer_fp (n : Nat) (f : PeerLink → PeerLink) (s : State) : (setPeer n f s).fp = s.fp := rfl
@[simp] theorem setPeer_pl (n : Nat) (f : PeerLink → PeerLink) (s : State) : (setPeer n f s).pl = { s.pl with links := upd s.pl.links n f } := rfl
@[simp] theorem setPeer_lcc (n : Nat) (f : PeerLink → PeerLink) (s : State) : (setPeer n f s).lcc = s.lcc := rfl
@[simp] theorem setPeer_freeCount (n : Nat) (f : PeerLink → PeerLink) (s : State) : (setPeer n f s).freeCount = s.freeCount := rfl
@[simp] theorem setPeer_upset (n : Nat) (f : PeerLink → PeerLink) (s : State) : (setPeer n f s).upset = s.upset := rfl
@[simp] theorem setPeer_note (n : Nat) (f : PeerLink → PeerLink) (s : State) : (setPeer n f s).note = s.note := rfl
@[simp] theorem setPeer_pending (n : Nat) (f : PeerLink → PeerLink) (s : State) : (setPeer n f s).pending = s.pending := rfl

/-! ## setPort -/

@[simp] theorem setPort_grade (n : Nat) (f : FiPort → FiPort) (s : State) : (setPort n f s).grade = s.grade := rfl
@[simp] theorem setPort_power (n : Nat) (f : FiPort → FiPort) (s : State) : (setPort n f s).power = s.power := rfl
@[simp] theorem setPort_porstLow (n : Nat) (f : FiPort → FiPort) (s : State) : (setPort n f s).porstLow = s.porstLow := rfl
@[simp] theorem setPort_boardPos (n : Nat) (f : FiPort → FiPort) (s : State) : (setPort n f s).boardPos = s.boardPos := rfl
@[simp] theorem setPort_gcnt (n : Nat) (f : FiPort → FiPort) (s : State) : (setPort n f s).gcnt = s.gcnt := rfl
@[simp] theorem setPort_mem (n : Nat) (f : FiPort → FiPort) (s : State) : (setPort n f s).mem = s.mem := rfl
@[simp] theorem setPort_memCtl (n : Nat) (f : FiPort → FiPort) (s : State) : (setPort n f s).memCtl = s.memCtl := rfl
@[simp] theorem setPort_me (n : Nat) (f : FiPort → FiPort) (s : State) : (setPort n f s).me = s.me := rfl
@[simp] theorem setPort_mbx (n : Nat) (f : FiPort → FiPort) (s : State) : (setPort n f s).mbx = s.mbx := rfl
@[simp] theorem setPort_accepted (n : Nat) (f : FiPort → FiPort) (s : State) : (setPort n f s).accepted = s.accepted := rfl
@[simp] theorem setPort_serialBusy (n : Nat) (f : FiPort → FiPort) (s : State) : (setPort n f s).serialBusy = s.serialBusy := rfl
@[simp] theorem setPort_disarming (n : Nat) (f : FiPort → FiPort) (s : State) : (setPort n f s).disarming = s.disarming := rfl
@[simp] theorem setPort_arming (n : Nat) (f : FiPort → FiPort) (s : State) : (setPort n f s).arming = s.arming := rfl
@[simp] theorem setPort_rings (n : Nat) (f : FiPort → FiPort) (s : State) : (setPort n f s).rings = s.rings := rfl
@[simp] theorem setPort_alarms (n : Nat) (f : FiPort → FiPort) (s : State) : (setPort n f s).alarms = s.alarms := rfl
@[simp] theorem setPort_firstFault (n : Nat) (f : FiPort → FiPort) (s : State) : (setPort n f s).firstFault = s.firstFault := rfl
@[simp] theorem setPort_link (n : Nat) (f : FiPort → FiPort) (s : State) : (setPort n f s).link = s.link := rfl
@[simp] theorem setPort_hiLatches (n : Nat) (f : FiPort → FiPort) (s : State) : (setPort n f s).hiLatches = s.hiLatches := rfl
@[simp] theorem setPort_reply (n : Nat) (f : FiPort → FiPort) (s : State) : (setPort n f s).reply = s.reply := rfl
@[simp] theorem setPort_fw (n : Nat) (f : FiPort → FiPort) (s : State) : (setPort n f s).fw = s.fw := rfl
@[simp] theorem setPort_line (n : Nat) (f : FiPort → FiPort) (s : State) : (setPort n f s).line = s.line := rfl
@[simp] theorem setPort_jobs (n : Nat) (f : FiPort → FiPort) (s : State) : (setPort n f s).jobs = s.jobs := rfl
@[simp] theorem setPort_devBlocks (n : Nat) (f : FiPort → FiPort) (s : State) : (setPort n f s).devBlocks = s.devBlocks := rfl
@[simp] theorem setPort_claims (n : Nat) (f : FiPort → FiPort) (s : State) : (setPort n f s).claims = s.claims := rfl
@[simp] theorem setPort_shu (n : Nat) (f : FiPort → FiPort) (s : State) : (setPort n f s).shu = s.shu := rfl
@[simp] theorem setPort_pat (n : Nat) (f : FiPort → FiPort) (s : State) : (setPort n f s).pat = s.pat := rfl
@[simp] theorem setPort_occ (n : Nat) (f : FiPort → FiPort) (s : State) : (setPort n f s).occ = s.occ := rfl
@[simp] theorem setPort_trc (n : Nat) (f : FiPort → FiPort) (s : State) : (setPort n f s).trc = s.trc := rfl
@[simp] theorem setPort_chans (n : Nat) (f : FiPort → FiPort) (s : State) : (setPort n f s).chans = s.chans := rfl
@[simp] theorem setPort_pse (n : Nat) (f : FiPort → FiPort) (s : State) : (setPort n f s).pse = s.pse := rfl
@[simp] theorem setPort_se (n : Nat) (f : FiPort → FiPort) (s : State) : (setPort n f s).se = s.se := rfl
@[simp] theorem setPort_te (n : Nat) (f : FiPort → FiPort) (s : State) : (setPort n f s).te = s.te := rfl
@[simp] theorem setPort_tks (n : Nat) (f : FiPort → FiPort) (s : State) : (setPort n f s).tks = s.tks := rfl
@[simp] theorem setPort_fi (n : Nat) (f : FiPort → FiPort) (s : State) : (setPort n f s).fi = { s.fi with ports := upd s.fi.ports n f } := rfl
@[simp] theorem setPort_sheet (n : Nat) (f : FiPort → FiPort) (s : State) : (setPort n f s).sheet = s.sheet := rfl
@[simp] theorem setPort_sm (n : Nat) (f : FiPort → FiPort) (s : State) : (setPort n f s).sm = s.sm := rfl
@[simp] theorem setPort_fp (n : Nat) (f : FiPort → FiPort) (s : State) : (setPort n f s).fp = s.fp := rfl
@[simp] theorem setPort_pl (n : Nat) (f : FiPort → FiPort) (s : State) : (setPort n f s).pl = s.pl := rfl
@[simp] theorem setPort_lcc (n : Nat) (f : FiPort → FiPort) (s : State) : (setPort n f s).lcc = s.lcc := rfl
@[simp] theorem setPort_freeCount (n : Nat) (f : FiPort → FiPort) (s : State) : (setPort n f s).freeCount = s.freeCount := rfl
@[simp] theorem setPort_upset (n : Nat) (f : FiPort → FiPort) (s : State) : (setPort n f s).upset = s.upset := rfl
@[simp] theorem setPort_note (n : Nat) (f : FiPort → FiPort) (s : State) : (setPort n f s).note = s.note := rfl
@[simp] theorem setPort_pending (n : Nat) (f : FiPort → FiPort) (s : State) : (setPort n f s).pending = s.pending := rfl

/-! ## answer -/

@[simp] theorem answer_grade (data : List Byte) (bad : Bool) (s : State) : (answer data bad s).grade = s.grade := rfl
@[simp] theorem answer_power (data : List Byte) (bad : Bool) (s : State) : (answer data bad s).power = s.power := rfl
@[simp] theorem answer_porstLow (data : List Byte) (bad : Bool) (s : State) : (answer data bad s).porstLow = s.porstLow := rfl
@[simp] theorem answer_boardPos (data : List Byte) (bad : Bool) (s : State) : (answer data bad s).boardPos = s.boardPos := rfl
@[simp] theorem answer_gcnt (data : List Byte) (bad : Bool) (s : State) : (answer data bad s).gcnt = s.gcnt := rfl
@[simp] theorem answer_mem (data : List Byte) (bad : Bool) (s : State) : (answer data bad s).mem = s.mem := rfl
@[simp] theorem answer_memCtl (data : List Byte) (bad : Bool) (s : State) : (answer data bad s).memCtl = s.memCtl := rfl
@[simp] theorem answer_me (data : List Byte) (bad : Bool) (s : State) : (answer data bad s).me = s.me := rfl
@[simp] theorem answer_mbx (data : List Byte) (bad : Bool) (s : State) : (answer data bad s).mbx = s.mbx := rfl
@[simp] theorem answer_accepted (data : List Byte) (bad : Bool) (s : State) : (answer data bad s).accepted = s.accepted := rfl
@[simp] theorem answer_serialBusy (data : List Byte) (bad : Bool) (s : State) : (answer data bad s).serialBusy = s.serialBusy := rfl
@[simp] theorem answer_disarming (data : List Byte) (bad : Bool) (s : State) : (answer data bad s).disarming = s.disarming := rfl
@[simp] theorem answer_arming (data : List Byte) (bad : Bool) (s : State) : (answer data bad s).arming = s.arming := rfl
@[simp] theorem answer_rings (data : List Byte) (bad : Bool) (s : State) : (answer data bad s).rings = s.rings := rfl
@[simp] theorem answer_alarms (data : List Byte) (bad : Bool) (s : State) : (answer data bad s).alarms = s.alarms := rfl
@[simp] theorem answer_firstFault (data : List Byte) (bad : Bool) (s : State) : (answer data bad s).firstFault = s.firstFault := rfl
@[simp] theorem answer_link (data : List Byte) (bad : Bool) (s : State) : (answer data bad s).link = s.link := rfl
@[simp] theorem answer_hiLatches (data : List Byte) (bad : Bool) (s : State) : (answer data bad s).hiLatches = s.hiLatches := rfl
@[simp] theorem answer_reply (data : List Byte) (bad : Bool) (s : State) : (answer data bad s).reply = { data := data, poisoned := bad } := rfl
@[simp] theorem answer_fw (data : List Byte) (bad : Bool) (s : State) : (answer data bad s).fw = s.fw := rfl
@[simp] theorem answer_line (data : List Byte) (bad : Bool) (s : State) : (answer data bad s).line = s.line := rfl
@[simp] theorem answer_jobs (data : List Byte) (bad : Bool) (s : State) : (answer data bad s).jobs = s.jobs := rfl
@[simp] theorem answer_devBlocks (data : List Byte) (bad : Bool) (s : State) : (answer data bad s).devBlocks = s.devBlocks := rfl
@[simp] theorem answer_claims (data : List Byte) (bad : Bool) (s : State) : (answer data bad s).claims = s.claims := rfl
@[simp] theorem answer_shu (data : List Byte) (bad : Bool) (s : State) : (answer data bad s).shu = s.shu := rfl
@[simp] theorem answer_pat (data : List Byte) (bad : Bool) (s : State) : (answer data bad s).pat = s.pat := rfl
@[simp] theorem answer_occ (data : List Byte) (bad : Bool) (s : State) : (answer data bad s).occ = s.occ := rfl
@[simp] theorem answer_trc (data : List Byte) (bad : Bool) (s : State) : (answer data bad s).trc = s.trc := rfl
@[simp] theorem answer_chans (data : List Byte) (bad : Bool) (s : State) : (answer data bad s).chans = s.chans := rfl
@[simp] theorem answer_pse (data : List Byte) (bad : Bool) (s : State) : (answer data bad s).pse = s.pse := rfl
@[simp] theorem answer_se (data : List Byte) (bad : Bool) (s : State) : (answer data bad s).se = s.se := rfl
@[simp] theorem answer_te (data : List Byte) (bad : Bool) (s : State) : (answer data bad s).te = s.te := rfl
@[simp] theorem answer_tks (data : List Byte) (bad : Bool) (s : State) : (answer data bad s).tks = s.tks := rfl
@[simp] theorem answer_fi (data : List Byte) (bad : Bool) (s : State) : (answer data bad s).fi = s.fi := rfl
@[simp] theorem answer_sheet (data : List Byte) (bad : Bool) (s : State) : (answer data bad s).sheet = s.sheet := rfl
@[simp] theorem answer_sm (data : List Byte) (bad : Bool) (s : State) : (answer data bad s).sm = s.sm := rfl
@[simp] theorem answer_fp (data : List Byte) (bad : Bool) (s : State) : (answer data bad s).fp = s.fp := rfl
@[simp] theorem answer_pl (data : List Byte) (bad : Bool) (s : State) : (answer data bad s).pl = s.pl := rfl
@[simp] theorem answer_lcc (data : List Byte) (bad : Bool) (s : State) : (answer data bad s).lcc = s.lcc := rfl
@[simp] theorem answer_freeCount (data : List Byte) (bad : Bool) (s : State) : (answer data bad s).freeCount = s.freeCount := rfl
@[simp] theorem answer_upset (data : List Byte) (bad : Bool) (s : State) : (answer data bad s).upset = s.upset := rfl
@[simp] theorem answer_note (data : List Byte) (bad : Bool) (s : State) : (answer data bad s).note = s.note := rfl
@[simp] theorem answer_pending (data : List Byte) (bad : Bool) (s : State) : (answer data bad s).pending = s.pending := rfl

/-! ## indexError -/

@[simp] theorem indexError_grade (s : State) : (indexError s).grade = s.grade := rfl
@[simp] theorem indexError_power (s : State) : (indexError s).power = s.power := rfl
@[simp] theorem indexError_porstLow (s : State) : (indexError s).porstLow = s.porstLow := rfl
@[simp] theorem indexError_boardPos (s : State) : (indexError s).boardPos = s.boardPos := rfl
@[simp] theorem indexError_gcnt (s : State) : (indexError s).gcnt = s.gcnt := rfl
@[simp] theorem indexError_mem (s : State) : (indexError s).mem = s.mem := rfl
@[simp] theorem indexError_memCtl (s : State) : (indexError s).memCtl = s.memCtl := rfl
@[simp] theorem indexError_me (s : State) : (indexError s).me = s.me := rfl
@[simp] theorem indexError_mbx (s : State) : (indexError s).mbx = s.mbx := rfl
@[simp] theorem indexError_accepted (s : State) : (indexError s).accepted = s.accepted := rfl
@[simp] theorem indexError_serialBusy (s : State) : (indexError s).serialBusy = s.serialBusy := rfl
@[simp] theorem indexError_disarming (s : State) : (indexError s).disarming = s.disarming := rfl
@[simp] theorem indexError_arming (s : State) : (indexError s).arming = s.arming := rfl
@[simp] theorem indexError_rings (s : State) : (indexError s).rings = { s.rings with indexErrors := satAdd 65535 s.rings.indexErrors 1 } := rfl
@[simp] theorem indexError_alarms (s : State) : (indexError s).alarms = s.alarms := rfl
@[simp] theorem indexError_firstFault (s : State) : (indexError s).firstFault = s.firstFault := rfl
@[simp] theorem indexError_link (s : State) : (indexError s).link = s.link := rfl
@[simp] theorem indexError_hiLatches (s : State) : (indexError s).hiLatches = s.hiLatches := rfl
@[simp] theorem indexError_reply (s : State) : (indexError s).reply = s.reply := rfl
@[simp] theorem indexError_fw (s : State) : (indexError s).fw = s.fw := rfl
@[simp] theorem indexError_line (s : State) : (indexError s).line = s.line := rfl
@[simp] theorem indexError_jobs (s : State) : (indexError s).jobs = s.jobs := rfl
@[simp] theorem indexError_devBlocks (s : State) : (indexError s).devBlocks = s.devBlocks := rfl
@[simp] theorem indexError_claims (s : State) : (indexError s).claims = s.claims := rfl
@[simp] theorem indexError_shu (s : State) : (indexError s).shu = s.shu := rfl
@[simp] theorem indexError_pat (s : State) : (indexError s).pat = s.pat := rfl
@[simp] theorem indexError_occ (s : State) : (indexError s).occ = s.occ := rfl
@[simp] theorem indexError_trc (s : State) : (indexError s).trc = s.trc := rfl
@[simp] theorem indexError_chans (s : State) : (indexError s).chans = s.chans := rfl
@[simp] theorem indexError_pse (s : State) : (indexError s).pse = s.pse := rfl
@[simp] theorem indexError_se (s : State) : (indexError s).se = s.se := rfl
@[simp] theorem indexError_te (s : State) : (indexError s).te = s.te := rfl
@[simp] theorem indexError_tks (s : State) : (indexError s).tks = s.tks := rfl
@[simp] theorem indexError_fi (s : State) : (indexError s).fi = s.fi := rfl
@[simp] theorem indexError_sheet (s : State) : (indexError s).sheet = s.sheet := rfl
@[simp] theorem indexError_sm (s : State) : (indexError s).sm = s.sm := rfl
@[simp] theorem indexError_fp (s : State) : (indexError s).fp = s.fp := rfl
@[simp] theorem indexError_pl (s : State) : (indexError s).pl = s.pl := rfl
@[simp] theorem indexError_lcc (s : State) : (indexError s).lcc = s.lcc := rfl
@[simp] theorem indexError_freeCount (s : State) : (indexError s).freeCount = s.freeCount := rfl
@[simp] theorem indexError_upset (s : State) : (indexError s).upset = s.upset := rfl
@[simp] theorem indexError_note (s : State) : (indexError s).note = s.note := rfl
@[simp] theorem indexError_pending (s : State) : (indexError s).pending = s.pending := rfl

/-! ## setInput -/

@[simp] theorem setInput_grade (i : Nat) (f : EncInput → EncInput) (s : State) : (setInput i f s).grade = s.grade := by
  unfold setInput; split <;> rfl
@[simp] theorem setInput_power (i : Nat) (f : EncInput → EncInput) (s : State) : (setInput i f s).power = s.power := by
  unfold setInput; split <;> rfl
@[simp] theorem setInput_porstLow (i : Nat) (f : EncInput → EncInput) (s : State) : (setInput i f s).porstLow = s.porstLow := by
  unfold setInput; split <;> rfl
@[simp] theorem setInput_boardPos (i : Nat) (f : EncInput → EncInput) (s : State) : (setInput i f s).boardPos = s.boardPos := by
  unfold setInput; split <;> rfl
@[simp] theorem setInput_gcnt (i : Nat) (f : EncInput → EncInput) (s : State) : (setInput i f s).gcnt = s.gcnt := by
  unfold setInput; split <;> rfl
@[simp] theorem setInput_mem (i : Nat) (f : EncInput → EncInput) (s : State) : (setInput i f s).mem = s.mem := by
  unfold setInput; split <;> rfl
@[simp] theorem setInput_memCtl (i : Nat) (f : EncInput → EncInput) (s : State) : (setInput i f s).memCtl = s.memCtl := by
  unfold setInput; split <;> rfl
@[simp] theorem setInput_me (i : Nat) (f : EncInput → EncInput) (s : State) : (setInput i f s).me = s.me := by
  unfold setInput; split <;> rfl
@[simp] theorem setInput_mbx (i : Nat) (f : EncInput → EncInput) (s : State) : (setInput i f s).mbx = s.mbx := by
  unfold setInput; split <;> rfl
@[simp] theorem setInput_accepted (i : Nat) (f : EncInput → EncInput) (s : State) : (setInput i f s).accepted = s.accepted := by
  unfold setInput; split <;> rfl
@[simp] theorem setInput_serialBusy (i : Nat) (f : EncInput → EncInput) (s : State) : (setInput i f s).serialBusy = s.serialBusy := by
  unfold setInput; split <;> rfl
@[simp] theorem setInput_disarming (i : Nat) (f : EncInput → EncInput) (s : State) : (setInput i f s).disarming = s.disarming := by
  unfold setInput; split <;> rfl
@[simp] theorem setInput_arming (i : Nat) (f : EncInput → EncInput) (s : State) : (setInput i f s).arming = s.arming := by
  unfold setInput; split <;> rfl
@[simp] theorem setInput_rings (i : Nat) (f : EncInput → EncInput) (s : State) : (setInput i f s).rings = s.rings := by
  unfold setInput; split <;> rfl
@[simp] theorem setInput_alarms (i : Nat) (f : EncInput → EncInput) (s : State) : (setInput i f s).alarms = s.alarms := by
  unfold setInput; split <;> rfl
@[simp] theorem setInput_firstFault (i : Nat) (f : EncInput → EncInput) (s : State) : (setInput i f s).firstFault = s.firstFault := by
  unfold setInput; split <;> rfl
@[simp] theorem setInput_link (i : Nat) (f : EncInput → EncInput) (s : State) : (setInput i f s).link = s.link := by
  unfold setInput; split <;> rfl
@[simp] theorem setInput_hiLatches (i : Nat) (f : EncInput → EncInput) (s : State) : (setInput i f s).hiLatches = s.hiLatches := by
  unfold setInput; split <;> rfl
@[simp] theorem setInput_reply (i : Nat) (f : EncInput → EncInput) (s : State) : (setInput i f s).reply = s.reply := by
  unfold setInput; split <;> rfl
@[simp] theorem setInput_fw (i : Nat) (f : EncInput → EncInput) (s : State) : (setInput i f s).fw = s.fw := by
  unfold setInput; split <;> rfl
@[simp] theorem setInput_jobs (i : Nat) (f : EncInput → EncInput) (s : State) : (setInput i f s).jobs = s.jobs := by
  unfold setInput; split <;> rfl
@[simp] theorem setInput_devBlocks (i : Nat) (f : EncInput → EncInput) (s : State) : (setInput i f s).devBlocks = s.devBlocks := by
  unfold setInput; split <;> rfl
@[simp] theorem setInput_claims (i : Nat) (f : EncInput → EncInput) (s : State) : (setInput i f s).claims = s.claims := by
  unfold setInput; split <;> rfl
@[simp] theorem setInput_shu (i : Nat) (f : EncInput → EncInput) (s : State) : (setInput i f s).shu = s.shu := by
  unfold setInput; split <;> rfl
@[simp] theorem setInput_pat (i : Nat) (f : EncInput → EncInput) (s : State) : (setInput i f s).pat = s.pat := by
  unfold setInput; split <;> rfl
@[simp] theorem setInput_occ (i : Nat) (f : EncInput → EncInput) (s : State) : (setInput i f s).occ = s.occ := by
  unfold setInput; split <;> rfl
@[simp] theorem setInput_trc (i : Nat) (f : EncInput → EncInput) (s : State) : (setInput i f s).trc = s.trc := by
  unfold setInput; split <;> rfl
@[simp] theorem setInput_chans (i : Nat) (f : EncInput → EncInput) (s : State) : (setInput i f s).chans = s.chans := by
  unfold setInput; split <;> rfl
@[simp] theorem setInput_pse (i : Nat) (f : EncInput → EncInput) (s : State) : (setInput i f s).pse = s.pse := by
  unfold setInput; split <;> rfl
@[simp] theorem setInput_se (i : Nat) (f : EncInput → EncInput) (s : State) : (setInput i f s).se = s.se := by
  unfold setInput; split <;> rfl
@[simp] theorem setInput_te (i : Nat) (f : EncInput → EncInput) (s : State) : (setInput i f s).te = s.te := by
  unfold setInput; split <;> rfl
@[simp] theorem setInput_tks (i : Nat) (f : EncInput → EncInput) (s : State) : (setInput i f s).tks = s.tks := by
  unfold setInput; split <;> rfl
@[simp] theorem setInput_fi (i : Nat) (f : EncInput → EncInput) (s : State) : (setInput i f s).fi = s.fi := by
  unfold setInput; split <;> rfl
@[simp] theorem setInput_sheet (i : Nat) (f : EncInput → EncInput) (s : State) : (setInput i f s).sheet = s.sheet := by
  unfold setInput; split <;> rfl
@[simp] theorem setInput_sm (i : Nat) (f : EncInput → EncInput) (s : State) : (setInput i f s).sm = s.sm := by
  unfold setInput; split <;> rfl
@[simp] theorem setInput_fp (i : Nat) (f : EncInput → EncInput) (s : State) : (setInput i f s).fp = s.fp := by
  unfold setInput; split <;> rfl
@[simp] theorem setInput_pl (i : Nat) (f : EncInput → EncInput) (s : State) : (setInput i f s).pl = s.pl := by
  unfold setInput; split <;> rfl
@[simp] theorem setInput_lcc (i : Nat) (f : EncInput → EncInput) (s : State) : (setInput i f s).lcc = s.lcc := by
  unfold setInput; split <;> rfl
@[simp] theorem setInput_freeCount (i : Nat) (f : EncInput → EncInput) (s : State) : (setInput i f s).freeCount = s.freeCount := by
  unfold setInput; split <;> rfl
@[simp] theorem setInput_upset (i : Nat) (f : EncInput → EncInput) (s : State) : (setInput i f s).upset = s.upset := by
  unfold setInput; split <;> rfl
@[simp] theorem setInput_note (i : Nat) (f : EncInput → EncInput) (s : State) : (setInput i f s).note = s.note := by
  unfold setInput; split <;> rfl
@[simp] theorem setInput_pending (i : Nat) (f : EncInput → EncInput) (s : State) : (setInput i f s).pending = s.pending := by
  unfold setInput; split <;> rfl

end Sys2Proof.Machine
end

