-- ==== Sys2Proof/WellFormed.lean ====
section
/-!
DEFINITION. The operands that a command can have on this hardware: widths of a bus access, lengths that a packet format allows,
installed sizes and the self-test plan.
-/

namespace Sys2Proof

/-- Widths in bytes of an access of BAR0 (DESIGN CHOICE, log 79: the spec gives none; R7 speaks of every width but 4 as a violation). -/
def accessWidth (n : Nat) : Bool := n == 1 || n == 2 || n == 4 || n == 8

/-- An access of BAR2 touches 1 to 4,096 bytes within its 64 GiB. -/
def barSpan (addr len : Nat) : Bool := 1 ≤ len && len ≤ 4096 && addr + len ≤ 2 ^ 36

/-- Installed sizes of LPDDR5 in GiB (R380). -/
def installedSize (gib : Nat) : Bool := gib == 4 || gib == 8 || gib == 16 || gib == 32 || gib == 64

/-- A flit has 236 bytes of payload (R460). -/
def Flit.wellFormed (f : Flit) : Bool := f.payload.length ≤ 236

/-- Instances of a class in the larger grade, and slices of each (R369). -/
def TestClass.size : TestClass → Nat × Nat
  | .workCore => (64, 2)
  | .panel => (16, 2)
  | .lane => (8, 1)
  | .tks => (2, 1)
  | .pse => (8, 1)
  | .darn => (4, 1)
  | .tracerGroup => (8, 1)
  | .seam => (1, 1)

/-- A slice of the self-test plan. -/
def TestSlice.wellFormed (t : TestSlice) : Bool := t.inst.val < t.cls.size.1 && t.slice.val < t.cls.size.2

/-- The operands of a command are ones that the hardware can see. -/
def Instr.wellFormed : Instr → Bool
  | .registerWrite _ width _ => accessWidth width
  | .registerLoRead _ width => accessWidth width
  | .bar2Read addr len => barSpan addr.toNat len
  | .bar2Write addr bytes => barSpan addr.toNat bytes.length
  | .csiLongPacket _ _ _ wordCount payload _ _ => decide (wordCount < 65536) && decide (payload.length < 65536)
  | .fpFrameReceive _ frame _ => decide (60 ≤ frame.length) && decide (frame.length ≤ 1514)
  | .deltaMessage _ _ _ records => decide (records.length ≤ 65536)
  | .fullState _ _ entries => entries.all fun e => decide (e.wordIndex.toNat < 32768)
  | .candMessage _ _ list => !list.isEmpty
  | .selftestSliceStart target => target.wellFormed
  | .selftestSliceEnd target _ => target.wellFormed
  | .wake _ gib => installedSize gib.val
  | .plFlitReceive _ flit => flit.wellFormed
  | .jobDefine .. | .jobDelete .. | .tableLoad .. | .listLoad .. | .configWrite .. | .jobArm .. | .jobDisarm ..
  | .channelGoal .. | .servicePriority .. | .patternInstall .. | .patternRetire .. | .networkLoad ..
  | .safetyResume .. | .memoryMode .. | .memFlipArm .. | .memRepair .. | .moveEngineResume .. | .lineReference ..
  | .syncAlign .. | .fwLoad .. | .traceControl .. | .attest .. | .powerState .. | .lifecycleSet .. | .keyProvision ..
  | .unknownOpcodeRefusal .. | .doorbellCollision .. | .mbxSqTailWrite .. | .ringHeadWrite .. | .alarmStickyClear ..
  | .firstFaultUnfreeze .. | .submissionEntry | .functionLevelReset | .d3hotEntry | .msiXMessage ..
  | .dieLinkFailure .. | .dieLinkRetrain .. | .encoderCount .. | .encoderZEdge .. | .encoderFaultInput ..
  | .encoderCapture | .encoderRedundantCompare | .lineStateEvaluation | .virtualAdvance | .lineTick
  | .lineMessageSample | .lineMessageReceive .. | .lineMessageApply | .lineMsgTimeout | .syncEdge | .syncTimeout
  | .jobLaunch | .listTriggering | .signalApply | .waitLimitExpiry .. | .engineGet .. | .itemCompletion ..
  | .releasedItemReady | .releaseDeadline .. | .nop .. | .jobEvent .. | .signal .. | .wait .. | .delayInsert ..
  | .delayCancel .. | .epochCommit .. | .epochApply .. | .deltaInject .. | .edgeRead .. | .search .. | .darn ..
  | .structureLoad .. | .ease .. | .qpSolve .. | .lsqFitClearAccumulate .. | .lsqFitAccumulate .. | .lsqFitSolve ..
  | .networkSegment .. | .matmul .. | .topk .. | .topkMerge .. | .frameTake .. | .frameTakeTimeout ..
  | .frameReturn .. | .goldenInject .. | .checkB .. | .stitch .. | .hold .. | .copy .. | .fill .. | .gather ..
  | .setpointSend .. | .correctionSend .. | .deltaBroadcast .. | .candSend .. | .candGather ..
  | .gatherLimitExpiry .. | .kernel .. | .rotationCount | .recount | .recountOverflowSweep | .fullCount
  | .recountOverdue | .sliceBoundary | .obsSourceTimeout .. | .peerSourceTimeout .. | .frameStart .. | .frameEnd ..
  | .frameMaxTimeout .. | .ffmDecision .. | .fpTransmitOpportunity .. | .timeFrameDue .. | .setpointLateDiscard ..
  | .fpFeedbackTimeout .. | .plcaCoordinatorLost .. | .plcaResume .. | .plLinkTraining .. | .plRetryLimit ..
  | .plRetrainRetry .. | .plCreditTimeout .. | .fullStateReq .. | .configMessage .. | .peerConfigTimeout ..
  | .eccWriteBack | .correctionWindowEnd | .autoRepair | .mcRequestPromotion | .safeReqAssert | .safeReqRelease
  | .safeOkReadback .. | .coverageEvaluation | .watchdogExpiry .. | .ccCoreReady .. | .tamperEvent ..
  | .thimbleWipeDone | .porstAssert | .powerOffSwitch | .encoderFaultInputRelease .. | .encoderOverspeedEnd
  | .d3hotExit | .powerRemoval .. | .csiShortPacket .. => true

end Sys2Proof
end

