-- ==== Sys2Proof/Tests/Slice0.lean ====
section
/-!
SUPPORT. Tests: ill-formed commands that WellFormed refuses, worked values from the manual, and for each statement of the certificate states and
operands that meet its hypotheses.
-/

namespace Sys2Proof.Tests

open Sys2Proof Sys2Proof.Machine

set_option Elab.async false

/-! ## Operands that the hardware cannot see -/

theorem test_refuses_register_write_of_3_bytes : Instr.wellFormed (.registerWrite 0x18 3 0) = false := by decide
theorem test_refuses_register_read_of_16_bytes : Instr.wellFormed (.registerLoRead 0x18 16) = false := by decide
theorem test_refuses_bar2_read_of_no_byte : Instr.wellFormed (.bar2Read 0 0) = false := by decide
theorem test_refuses_bar2_write_beyond_the_bar : Instr.wellFormed (.bar2Write 0xFFFFFFFFF [some 1, some 2]) = false := by decide
theorem test_refuses_word_count_of_17_bits : Instr.wellFormed (.csiLongPacket 0 0 0x2A 65536 [] true .ok) = false := by decide
theorem test_refuses_short_ethernet_frame : Instr.wellFormed (.fpFrameReceive 0 [1, 2, 3] true) = false := by decide
theorem test_refuses_full_state_word_beyond_a_slice : Instr.wellFormed (.fullState 0 0 [⟨0, 32768, 0⟩]) = false := by decide
theorem test_refuses_empty_candidate_list : Instr.wellFormed (.candMessage 0 0 []) = false := by decide
theorem test_refuses_ninth_lane_slice : Instr.wellFormed (.selftestSliceStart ⟨.lane, 8, 0⟩) = false := by decide
theorem test_refuses_second_seam_slice : Instr.wellFormed (.selftestSliceEnd ⟨.seam, 0, 1⟩ true) = false := by decide
theorem test_refuses_wake_with_12_gib : Instr.wellFormed (.wake ⟨0, 0⟩ 12) = false := by decide
theorem test_refuses_flit_of_237_bytes :
    Instr.wellFormed (.plFlitReceive 0 ⟨true, 0, true, true, false, 0, 0, false, 0, 236, true, List.replicate 237 1⟩) = false := by decide +kernel
theorem test_refuses_delta_message_beyond_65536 (r : List (BitVec 32)) (h : r.length = 65537) : Instr.wellFormed (.deltaMessage 0 0 false r) = false := by
  simp [Instr.wellFormed, h]

/-! ## States -/

/-- Awake, the link up and set up by the host's driver, the firmware running, in Service mode. -/
def served : State :=
  { State.reset with
    power := .on, fw.stage := .running, fw.ready := 0xF, memCtl.maintenance := false
    link := { modules := 3, config := { memoryEnable := true, busMaster := true, msixEnable := true }, vectors := List.replicate 5 { masked := false } } }

/-- The same outside Safe-Hold. -/
def normal : State := { served with sm.latched := 0, sm.covered := true }

/-- With arguments in mailbox 0. -/
def asked (args : List Nat) (s : State) : State :=
  { s with mbx := upd s.mbx 0 fun b => { b with args := args.map (BitVec.ofNat 32 ·) ++ List.replicate (16 - args.length) 0 } }

/-- With words in memory, encoded. -/
def holding (k : Nat) (ws : List Word) (s : State) : State :=
  { s with mem := Memory.putAll s.mem ((List.range ws.length).map fun i => (k + i, some (encodeWord (s.rowCol (k + i)) (nth ws i 0)))) }

/-- An empty job in a state. -/
def aJob (st : JobState) : Job :=
  { id := 0x31, state := st, reproducible := false, seed0 := 0, seed1 := 0, digestKey := 0, stepBase := 0, launch := 0, buffers := [], lists := [],
    blocks := [], networks := [], priorities := [], launchAt := 0, triggered := [] }

/-- With a job in slot 1. -/
def withJob (j : Job) (s : State) : State := { s with jobs := [none, some j, none, none] }

/-- A block of a service type from its fields, those of more than one slot from their first. -/
def blk (type service : Nat) (job : BitVec 16) (f : Nat → Nat) : Block :=
  let slots := ((List.range (blockFields type).length).zip (blockFields type)).flatMap fun (i, d) => (List.range d.slots).map fun k => bits (f i) (32 * k) 32
  { serviceType := type, service := service, jobId := job, enabled := true,
    words := List.replicate (bodyAt type + 1) 0 ++ packWords 32 8 (ceilDiv slots.length 8) slots }

/-- An entry with an opcode, a PARAM and operands: buffer, offset and length each, all for reading and writing. -/
def entryOf (op param : Nat) (refs : List (Option (Nat × Nat × Nat))) : Entry :=
  BitVec.ofNat 512 (op + 2 ^ 96 * param + ((List.range refs.length).foldl (fun acc i => acc + (match nth refs i none with
    | some (b, o, l) => 2 ^ (128 + 96 * i) * (b + 2 ^ 16 * 3 + 2 ^ 32 * o + 2 ^ 64 * l)
    | none => 0)) 0))

/-- A RUNNING work item with number 1. -/
def anItem (e : Entry) : Item :=
  { id := 1, slot := 1, jobId := 0x31, service := 20, list := 0, index := 0, entry := e, trig := 0, tag := 0, sheet := some 0, golden := false, priority := 3,
    phase := .running, pool := .none, synced := true, admitted := 0, limit := 100, flowSeq := 0, order := 0, engine := none, started := 0, result := none }

/-- First word of buffer 0 of the jobs below, in BSP region 50. -/
def home : Nat := 50 * 32768

/-- A RUNNING job with one buffer of 4,096 words and blocks. -/
def busyJob (bs : List Block) : Job := { aJob .running with buffers := [⟨32 * home, 4096, 20, 0⟩], blocks := bs }

/-- An engine holds an item of a job. -/
def engaged (e : Entry) (bs : List Block) (s : State) : State := { withJob (busyJob bs) s with shu.items := [anItem e] }

/-- A LINE block with 4,096 counts a machine cycle and a role. -/
def lineBlk (role : Nat) : Block := blk 1 0 0xFFFF fun f => match f with | 0 => 4096 | 1 => 110 | 5 => 4 | 11 => 16 | 12 => role | 13 => 2 | 14 => 50 | _ => 0

/-- The Line Timer in a role. -/
def lined (role : Nat) : State := { served with devBlocks := [lineBlk role] }

/-- The Line Timer in a role with changes of its state. -/
def lineState (role : Nat) (f : Line → Line) : State := { lined role with line := f (lined role).line }

/-- The MEMORY block that gives regions 50 on to job slot 1 of the model, with everything else as it wakes. -/
def owned : State := { served with devBlocks := [blk 4 6 0xFFFF fun i => if i = 47 then 2 else 0] }

/-- A check passes. -/
def passes {α : Type} (x : Check α) : Bool := match x with | .ok _ => true | .error _ => false

/-- A program ends well. -/
def ends {α : Type} (x : State × Check α) : Bool := passes x.2

/-! ## The machine as a whole -/

theorem test_witness_EmptyQueueTicks :
    served.pending = [] ∧ served.awake = true ∧ served.quiet = true ∧ served.lcc.burn = none ∧ State.reset.pending = [] ∧ State.reset.awake = false ∧
      served.emptyClass = none ∧ served.note = none ∧ served.upset ≠ some .managerCopy ∧ served.testWindow = none ∧ (served.now + 1) % 1000000 ≠ 0 ∧
      (({ served with gcnt := 999999 } : State).now + 1) % 1000000 = 0 := by
  decide

/-- For StepRunsTheFrontCommand, QueueIsFirstInFirstOut and LifeCycleMovesOnlyByTransition: a step that answers a next state. -/
theorem test_witness_steps : ∃ t, step { State.reset with pending := [.porstAssert] } = .next t := ⟨_, rfl⟩

/-- For GlobalCounterStandsUnderCommands, OffIsInert and OperationsKeepToTheirEngines. -/
theorem test_witness_commands : (∃ t, exec .lineTick served = .next t) ∧ State.reset.power = .off ∧ served.awake = true := ⟨⟨_, rfl⟩, by decide, by decide⟩

theorem test_witness_BurnedFusesStand : FuseMap.Keeps {} State.reset.lcc.fuses ∧ ∃ t, step State.reset = .next t := ⟨FuseMap.keeps_refl _, _, rfl⟩

theorem test_witness_SettlingIsTheEndOfADisarm :
    let d := withJob (aJob .disarming) served
    served.quiet = true ∧ d.activeJob = some (1, aJob .disarming) ∧ d.shu.items = [] ∧ d.disarming = none ∧
      (engaged (entryOf 0x0101 0 []) [] served).shu.items ≠ [] := by decide +kernel

theorem test_witness_OperationsNeedTheirItem : served.awake = true ∧ served.runningItem 7 0x0A01 = none := by decide

/-! ## Mailboxes -/

theorem test_witness_UnknownOpcodeIsRefused :
    served.atRest 0 = true ∧ served.known 0xFFFF = none ∧ State.reset.fw.stage = .bootRom ∧ (0x0106 : BitVec 16) ≠ 0x0C01 := by decide +kernel

theorem test_witness_UndefinedArgumentBitsAreRefused :
    (asked [0, 0, 0, 0, 1] served).atRest 0 = true ∧
      (match (asked [0, 0, 0, 0, 1] served).known 0x0102 with
       | some o => argsDefined o ((asked [0, 0, 0, 0, 1] served).arguments 0)
       | none => true) = false := by decide +kernel

theorem test_witness_DoorbellWhileBusy :
    let s : State := { served with mbx := upd served.mbx 0 fun b => { b with busy := true } }
    s.hostReaches = true ∧ (s.box 0).busy = true := by decide

theorem test_witness_CompletionOfACommand :
    3 < served.mbx.length ∧ served.memCtl.flip = none ∧ served.rings.cq.fill ≠ cqSize ∧
      ({ served with rings.cq.tail := BitVec.ofNat 32 cqSize } : State).rings.cq.fill = cqSize := by decide +kernel

/-- A JOB object for job 0x31. -/
def jobObject : List Word := [word (0x0000000300010001 + 2 ^ 64 * 0x31), 0, 0]

theorem test_witness_JobDefine :
    let s := asked [1, 32 * home, 0, 3] (holding home jobObject served)
    s.takes 0 0x0101 = true ∧ s.jobsAllowed = true ∧ s.jobIn 1 = none ∧ argAddr (s.arguments 0) 1 % 32 = 0 ∧ s.holds home jobObject = true ∧
      launchOk 0 = true ∧ s.jobById 0x31 = none ∧ (asked [1] (withJob (aJob .defined) served)).takes 0 0x0101 = true := by decide +kernel

theorem test_witness_JobDeleteAndDisarm :
    (∀ x ∈ [JobState.defined, .armed, .running, .disarming],
      let s := asked [0x31] (withJob (aJob x) served)
      s.takes 0 0x0102 = true ∧ s.takes 0 0x0107 = true ∧ s.jobById 0x31 = some (1, aJob x) ∧ s.arming = none) ∧
    (asked [0x32] served).takes 0 0x0102 = true ∧ (asked [0x32] served).jobById 0x32 = none ∧
    (withJob (aJob .armed) served).onlyActive 1 = true ∧ served.shu.items = [] ∧ served.line.lists = [[], [], [], []] ∧ served.shu.cycles = [] ∧
    (let s := asked [0x31] (engaged (entryOf 0x0A01 0 []) [] served)
     s.takes 0 0x0107 = true ∧ s.onlyActive 1 = true ∧ s.shu.items ≠ [] ∧ ∀ it ∈ s.shu.items, it.phase = .running) := by decide +kernel

theorem test_witness_JobArm :
    let s := asked [0x31] (withJob (aJob .defined) normal)
    s.takes 0 0x0106 = true ∧ s.jobsAllowed = true ∧ s.jobById 0x31 = some (1, aJob .defined) ∧ s.activeJob = none ∧ s.memCtl.maintenance = false ∧
      s.smState = 0 ∧ s.camerasOf (aJob .defined) = [] ∧ (asked [0x31, 100000] s).takes 0 0x0106 = true ∧ (asked [0x31, 99999] s).takes 0 0x0106 = true ∧
      (asked [0x31] (withJob (aJob .defined) served)).smState = 2 := by decide +kernel

/-- A buffer table with one buffer of 16 words. -/
def tableObject : List Word :=
  [word (0x00010004 + 2 ^ 32 * 2 + 2 ^ 64 * 0x31 + 2 ^ 128), word (32 * home + 2 ^ 64 * 16 + 2 ^ 96 * 20)]

theorem test_witness_TableLoad :
    let s := asked [0x31, 32 * (home - 327680), 0, 2] (holding (home - 327680) tableObject (withJob (aJob .defined) owned))
    s.takes 0 0x0103 = true ∧ definedJob (s.arguments 0) s = some (1, aJob .defined) ∧ s.holds (home - 327680) tableObject = true ∧
      (placeBuffers (s.issued 0 0x0103 7) 1 [] (tableObject.tail.map bufferOf) matches .ok _) = true ∧
      definedJob ((asked [0x32] served).arguments 0) (asked [0x32] served) = none := by decide +kernel

/-- A list with one NOP of a GENERAL service. -/
def listObject : List Word := [word (0x00010003 + 2 ^ 32 * 3 + 2 ^ 64 * 0x31 + 2 ^ 80 * 20 + 2 ^ 88 * 0x15 + 2 ^ 128), word 0x0101, 0]

def listCtx : ListCtx :=
  { job := aJob .defined, service := 20, serviceType := 0x15, number := 3, atArm := false, entries := entriesOf listObject.tail }

def loadsList : State := asked [0x31 + 2 ^ 16 * 3, 32 * home, 0, 3] (holding home listObject (withJob (aJob .defined) owned))

theorem test_witness_ListLoad_takes : loadsList.takes 0 0x0104 = true := by decide +kernel

theorem test_witness_ListLoad_holds : loadsList.holds home listObject = true := by decide +kernel

theorem test_witness_ListLoad_entries :
    jobLevel 0x15 = true ∧ listCtx.typeOk = true ∧ listCtx.entries = [BitVec.ofNat 512 0x0101] := by decide +kernel

/-- The entry passes a test of R85. -/
def entryPasses (t : Nat) : Bool :=
  match entryTest listCtx t 0 (BitVec.ofNat 512 0x0101) (loadsList.issued 0 0x0104 7) with
  | .ok _ => true
  | .error _ => false

theorem test_witness_ListLoad_tests : [2, 3, 6, 7, 8, 9, 10, 11, 12].all entryPasses = true := by decide +kernel

theorem test_witness_ListLoad_networks :
    listCtx.network (BitVec.ofNat 512 0x0101) = none ∧
      ends (runProg (listTests listCtx [2, 3, 5, 6, 7, 8, 9, 10, 11, 12]) (loadsList.issued 0 0x0104 7)) = true := by decide +kernel

/-- A CONFIGURATION_BLOCK with ENABLE 0, and an enabled GENERAL one. -/
def blockOff : Word := word (0x00010002 + 2 ^ 32 + 2 ^ 64 * 0x31 + 2 ^ 80 * 20 + 2 ^ 88 * 0x15)
def blockOn : List Word :=
  word (0x00010002 + 2 ^ 32 * blockLength 0x15 + 2 ^ 64 * 0x31 + 2 ^ 80 * 20 + 2 ^ 88 * 0x15 + 2 ^ 96) :: word (2 ^ 128 * 100) ::
    List.replicate (blockLength 0x15 - 2) 0

def writesBlock (ws : List Word) : State := asked [0, 32 * home, 0, ws.length] (holding home ws (withJob (aJob .defined) owned))

theorem test_witness_ConfigWrite_disables :
    (writesBlock [blockOff]).takes 0 0x0105 = true ∧ (writesBlock [blockOff]).holds home [blockOff] = true := by decide +kernel

theorem test_witness_ConfigWrite_length : blockOn.length = blockLength 0x15 := by decide +kernel

theorem test_witness_ConfigWrite_takes : (writesBlock blockOn).takes 0 0x0105 = true := by decide +kernel

theorem test_witness_ConfigWrite_holds : (writesBlock blockOn).holds home blockOn = true := by decide +kernel

/-- The block passes a test of R84. -/
def blockPasses (t : Nat) : Bool :=
  match blockTest t (some (aJob .defined)) ⟨0x15, 20, 0x31, true, blockOn⟩ ((writesBlock blockOn).issued 0 0x0105 7) with
  | .ok _ => true
  | .error _ => false

theorem test_witness_ConfigWrite_tests : [3, 4, 6, 7, 8, 9, 10, 12].all blockPasses = true := by decide +kernel

theorem test_witness_ConfigWrite_enables :
    ends (runProg (enableTests (some (aJob .defined)) ⟨0x15, 20, 0x31, true, blockOn⟩) ((writesBlock blockOn).issued 0 0x0105 7)) = true := by decide +kernel

/-- A device-level block header. -/
def deviceHeader : Word := word (0x00010002 + 2 ^ 32 + 2 ^ 64 * 0xFFFF + 2 ^ 88 * 4)

theorem test_witness_ConfigWrite_refused :
    let u := asked [0, 32 * home, 0, 1] (holding home [deviceHeader] (withJob (aJob .armed) owned))
    u.takes 0 0x0105 = true ∧ u.holds home [deviceHeader] = true ∧ u.activeJob.isSome = true := by decide +kernel

/-- A LINE block header with ENABLE 0, one of another version, and a MEMORY block as it wakes. -/
def lineOff : Word := word (0x00010002 + 2 ^ 32 + 2 ^ 64 * 0xFFFF + 2 ^ 88)
def otherVersion : Word := word (0x00020002 + 2 ^ 32 + 2 ^ 64 * 0x31 + 2 ^ 80 * 20 + 2 ^ 88 * 0x15)
def powerBlk : List Word :=
  word (0x00010002 + 2 ^ 32 * blockLength 5 + 2 ^ 64 * 0xFFFF + 2 ^ 80 * 7 + 2 ^ 88 * 5 + 2 ^ 96) :: word 127 ::
    List.replicate (blockLength 5 - 2) 0

theorem test_witness_ConfigWrite_device :
    let s : State := asked [0, 32 * home, 0, 1] (holding home [lineOff] owned)
    s.takes 0 0x0105 = true ∧ s.holds home [lineOff] = true ∧ s.activeJob = none ∧ bits lineOff.toNat 96 1 = 0 ∧ bits lineOff.toNat 16 8 = 1 ∧
      (writesBlock [otherVersion]).takes 0 0x0105 = true ∧ (writesBlock [otherVersion]).holds home [otherVersion] = true ∧
      bits otherVersion.toNat 16 8 ≠ 1 ∧ (writesBlock [otherVersion]).jobById 0x31 = some (1, aJob .defined) := by decide +kernel

theorem test_witness_ConfigWrite_device_enabled :
    let s : State := asked [0, 32 * home, 0, powerBlk.length] (holding home powerBlk owned)
    s.takes 0 0x0105 = true ∧ s.holds home powerBlk = true ∧ powerBlk.length = blockLength 5 ∧ deviceService 5 7 = true ∧
      (blockTests none).all (fun t => passes (blockTest t none ⟨5, 7, 0xFFFF, true, powerBlk⟩ (s.issued 0 0x0105 7))) = true := by decide +kernel

/-! ## More mailbox commands -/

/-- A Pattern of two nodes whose node section stands at `home`. -/
def aPattern : Pattern :=
  { slot := 0, sig := 1, nodes := 2, edges := 0, primitives := 0, partitions := 3, pitch := 5000, originX := 0, originY := 0, originZ := 0, fwdTotal := 0,
    revTotal := 0, partAt := home, nodeAt := home, edgeAt := home, primAt := home, fwdDirAt := home, fwdAt := home, revDirAt := home, revAt := home }

/-- A PLANNING_CHANNEL block of channel 3 in partition 2. -/
def channelBlk : Block := blk 0x11 20 0x31 fun f => match f with | 0 => 3 | 1 => 2 | 7 => 0xFFFF | _ => 1

/-- The armed job of channel 3, its Pattern active, node 0 in partition 2 and node 1 in partition 5. -/
def goalState (goal : Nat) : State :=
  { asked [0x31 + 2 ^ 16 * 3, goal] (holding home [word (2 ^ 152 * 2), word (2 ^ 152 * 5)] (withJob { busyJob [channelBlk] with state := .armed } served)) with
    pat.active := some aPattern }

theorem test_witness_GoalsAndPriorities_goal :
    (goalState 0).takes 0 0x0108 = true ∧ (liveJob ((goalState 0).arguments 0) (goalState 0)).isSome = true ∧
      ({ busyJob [channelBlk] with state := .armed } : Job).channelBlock 3 = some channelBlk ∧ channelBlk.field 1 = 2 ∧ channelBlk.field 0 = 3 := by
  decide +kernel

theorem test_witness_GoalsAndPriorities_nodes :
    (goalState 0).reads home (word (2 ^ 152 * 2)) = true ∧ (nodeOf (2 ^ 152 * 2)).partition = 2 ∧
      (goalState 1).reads (home + 1) (word (2 ^ 152 * 5)) = true ∧ (nodeOf (2 ^ 152 * 5)).partition ≠ 2 ∧ aPattern.nodes ≤ 2 := by decide +kernel

theorem test_witness_GoalsAndPriorities_map :
    let s := asked [0x31 + 2 ^ 16 * 20, 0x111111] (withJob (busyJob [channelBlk]) served)
    s.takes 0 0x0109 = true ∧ (liveJob (s.arguments 0) s).isSome = true ∧ ((busyJob [channelBlk]).service 20).isSome = true ∧
      (busyJob [channelBlk]).service 21 = none ∧ liveJob (s.arguments 0) (asked [0x32] served) = none := by decide +kernel

theorem test_witness_PatternInstall :
    (asked [0] served).takes 0 0x0301 = true ∧ (asked [0] served).activeJob = none ∧ ((asked [0] served).slotSpan 0).len = 0 ∧
      (withJob (aJob .armed) (asked [0] served)).activeJob.isSome = true := by decide +kernel

theorem test_witness_PatternInstall_fails : ends (runProg (installSteps 0) ((asked [0] served).issued 0 0x0301 7)) = false := by decide +kernel

theorem test_witness_NetworkLoad :
    let s := asked [0x31 + 2 ^ 16 * 2, 0] (withJob { busyJob [] with state := .defined } served)
    s.takes 0 0x0601 = true ∧ definedJob (s.arguments 0) s = some (1, { busyJob [] with state := .defined }) ∧
      (busyJob []).bufferSpan 0 = some ⟨home, 4096⟩ ∧ (busyJob []).bufferSpan 1 = none ∧ definedJob ((asked [0x32] s).arguments 0) s = none := by
  decide +kernel

theorem test_witness_NetworkLoad_fails :
    let s := asked [0x31 + 2 ^ 16 * 2, 0] (withJob { busyJob [] with state := .defined } served)
    ends (runProg (networkSteps 2 ⟨home, 4096⟩) (s.issued 0 0x0601 7)) = false := by decide +kernel

theorem test_witness_ShortMailboxCommands :
    served.takes 0 0x0302 = true ∧ served.takes 0 0x0901 = true ∧ served.takes 0 0x0A01 = true ∧ served.takes 0 0x0A04 = true ∧
      served.takes 0 0x0C02 = true ∧ served.takes 0 0x0B02 = true ∧ served.activeJob = none ∧ served.pat.active = none ∧
      (goalState 0).pat.active.isSome = true ∧ served.standing ≠ 0 ∧ normal.standing = 0 ∧ normal.takes 0 0x0901 = true ∧
      served.memCtl.merge = [] ∧ served.me.halted.getLsbD 0 = false ∧
      ({ served with me.halted := 1 } : State).takes 0 0x0A04 = true := by decide +kernel

theorem test_witness_MemoryTestAndRepair :
    let m : State := { served with memCtl.maintenance := true }
    let flip := asked [2 ^ 16, 32 * home] (holding (payloadBase 0) [1] m)
    served.takes 0 0x0A02 = true ∧ (asked [7] m).takes 0 0x0A02 = true ∧ flip.takes 0 0x0A02 = true ∧ flip.memInstances 0 = 1 ∧
      flip.reads (payloadBase 0) 1 = true ∧ (flip.flipKey 0 0 (argAddr (flip.arguments 0) 1)).isSome = true ∧ flip.memCtl.maintenance = true ∧
      (asked [2 ^ 12, 127, 287] served).takes 0 0x0A03 = true ∧ 127 < bankCount 0 ∧ 0 < spares 0 true ∧ (asked [7] served).takes 0 0x0A03 = true ∧
      (asked [2 ^ 16, 127, 3] served).takes 0 0x0A03 = true ∧ (∀ w, bankWords 0 = some w → 3 < w / 8) ∧ 0 < spares 0 false ∧
      served.sparesUsed { memory := 0, inst := 0, column := false, bank := 127, index := 3, commit := true } = 0 ∧ served.memCtl.softRepairs = [] := by
  decide +kernel

theorem test_witness_LineReference :
    (asked [5, 4095] (lined 0)).takes 0 0x0B01 = true ∧ (lined 0).role ≠ .follower ∧ (lined 2).role = .follower ∧ (lined 0).encCounts = 4096 ∧
      (asked [0, 0] (lined 2)).takes 0 0x0B01 = true ∧ (lined 0).line.enc0.faultLow = false ∧
      keyAhead (lined 0).line.genM (positionOf 5 4095 4096) = false ∧
      keyAhead ({ lined 0 with line.genM := positionOf 5 4095 4096 } : State).line.genM (positionOf 1 0 4096) = true ∧
      (lined 0).line.lists = [[], [], [], []] := by decide +kernel

theorem test_witness_LineReference_skips :
    let e : DelayEntry := { key := 0x20000, period := 0, event := true, syncObj := 7, tag := 1, late := false, owner := ⟨none, 0⟩ }
    let s := asked [5, 4095] (lineState 0 fun l => { l with lists := [[e], [], [], []] })
    s.takes 0 0x0B01 = true ∧ s.role ≠ .follower ∧ keyAhead s.line.genM (positionOf 5 4095 s.encCounts) = false ∧ s.line.lists.length = 4 ∧
      (∀ l ∈ s.line.lists, ∀ e ∈ l, e.tag ≠ serviceTag 0x14) ∧ s.delayList 0 = [e] ∧ s.listOnV 0 = false ∧ 0 < keyDistance e.key s.line.m ∧
      keyDistance e.key s.line.m < keyDistance (positionOf 5 4095 s.encCounts) s.line.m := by decide +kernel

theorem test_witness_Attest :
    (asked [1, 2, 3] served).takes 0 0x0C03 = true ∧ served.lcc.fuses.lifeCycle = .manufacture ∧ served.lcc.wipeRunning = false ∧ served.lcc.tamper = 0 ∧
      (asked [1, 2, 3] { served with lcc.fuses.lifeCode := 3 }).takes 0 0x0C03 = true := by decide +kernel

theorem test_witness_FwLoad :
    let args (a n : Nat) := (asked [a, 0, n] served)
    (args 0 0xFFFFFFFF).takes 0 0x0C01 = true ∧ (args 0 0).takes 0 0x0C01 = true ∧ (args 1 16).takes 0 0x0C01 = true ∧ (args 0 16).takes 0 0x0C01 = true ∧
      fwPlaced served 0 16 = false ∧ fwPlaced served home 16 = true ∧ served.activeJob = none ∧
      (withJob (aJob .armed) (args (32 * home) 16)).activeJob.isSome = true := by decide +kernel

theorem test_witness_FwLoad_fails :
    let s := asked [32 * home, 0, 16] served
    s.takes 0 0x0C01 = true ∧ ends (runProg (fwProg (s.arguments 0)) (s.issued 0 0x0C01 7)) = false := by decide +kernel

/-! ### Signed images: the key of zeros, a response of zeros.  The digests are those of SHAKE256 (FIPS 202). -/

/-- The digest of the key, and a key of the Fuse Map that holds it. -/
def keyDigest : Nat := 0x306ab917275b118eadfd7a8faa6b2463f2884bf39def27c34e48a181c8ab508b00d59c5273e68a3d49b6bed29f73b71297bbff5571ed1c52662ecb777ae619e0
def trustedKey : Option (BitVec 512) := some (BitVec.ofNat 512 keyDigest)

/-- A signature block that begins its signature with a commitment digest. -/
def zeroBlock (c : Nat) : List Word := bytesWords 165 (zeroKey ++ (toBytes c 48 ++ zeroResponse) ++ List.replicate 19 0)

theorem test_digest_of_key : shake64 zeroKey = toBytes keyDigest 64 := by decide +kernel

/-- A message whose digests are known verifies. -/
theorem test_zero_verifies {message : List Byte} {d c : Nat} (h1 : shake256 64 (toBytes keyDigest 64 ++ [0, 0] ++ message) = toBytes d 64)
    (h2 : shake256 48 (toBytes d 64 ++ List.replicate 768 0) = toBytes c 48) (h3 : (challenge (toBytes c 48)).isSome = true) :
    mlDsaVerify zeroKey message (toBytes c 48 ++ zeroResponse) = true :=
  zeroResponse_verifies (toBytes_length _ _) h3 (by
    rw [show shake256 64 zeroKey = toBytes keyDigest 64 from test_digest_of_key, h1, h2])

/-- The parts of a signature block. -/
theorem test_zeroBlock {c : Nat} {bs : List Byte} (h : wordsBytes (zeroBlock c) = bs) (hb : bs.take 1952 = zeroKey ∧
    (bs.drop 1952).take 3309 = toBytes c 48 ++ zeroResponse ∧ ((bs.drop 5261).take 19).all (· == 0) = true) {head : List Word}
    (hv : mlDsaVerify zeroKey (wordsBytes head) (toBytes c 48 ++ zeroResponse) = true) : signatureCheck trustedKey head (zeroBlock c) = .ok () := by
  subst h
  refine signatureCheck_ok ?_ ?_ hb.2.2
  · rw [hb.1, test_digest_of_key]
    decide +kernel
  · rw [hb.1, hb.2.1]
    exact hv

theorem passes_ok {x : Check Unit} (h : passes x = true) : x = .ok () := by
  cases x with
  | ok a => rfl
  | error e => cases h

/-! A firmware image of two sections of one word. -/

def sectionsDigest : Nat := 0x1773be3a5df0751af8994d35026c870607e1d0b4b68c5d8e6d559c4f263f4cc174a4437ba25e0e45d230037b285629acec512fd64112bdffdea37bcaab73bcf1
def messageDigest : Nat := 0x10e4ebf07fe79ffbb61ec5f676dd26365777c308fcbce61e8f60477cafe0c4b17e2283444995d1666ae05434b16308a33b2764614053ec988205ad1def485a1d
def commitmentDigest : Nat := 0xb8b1bde7cf584b753df85ab02b4d79f441ec3ea9f8e49441e884bc09f0178b4ddc90234498a2621da3e2729f60806149

/-- The header of R431: version 1, SVN 0, the sections in words 181 and 182, IMAGE_WORDS 183. -/
def imageHead : List Word :=
  let v := 0x46544631 + 2 ^ 32 + 2 ^ 48 + 2 ^ 64 + 2 ^ 128 * 181 + 2 ^ 192 + 2 ^ 224 * 182 + 2 ^ 288 + 2 ^ 512 * 183 + 2 ^ 2048 * sectionsDigest
  (List.range 16).map fun i => word (bits v (256 * i) 256)

/-- The image in a FREE region, and a doorbell's arguments that name it. -/
def imageHeld : State :=
  holding home (imageHead ++ zeroBlock commitmentDigest ++ [1, 2]) (asked [32 * home, 0, 183] { served with lcc.fuses.fwKey := trustedKey })

theorem test_digest_of_sections : ofBytes (imageDigest [[1], [2]]) = sectionsDigest := by decide +kernel

theorem test_image_verifies : mlDsaVerify zeroKey (wordsBytes imageHead) (toBytes commitmentDigest 48 ++ zeroResponse) = true :=
  test_zero_verifies (d := messageDigest) (by decide +kernel) (by decide +kernel) (by decide +kernel)

theorem test_image_is_trusted {s : State} (hk : s.firmwareKey = trustedKey) (hs : s.lcc.fuses.svnMin = 0) :
    fwTrust imageHead (zeroBlock commitmentDigest) s = .ok () := by
  refine fwTrust_ok ?_ (by rw [hs]; exact Nat.zero_le _)
  rw [hk]
  exact test_zeroBlock rfl (by decide +kernel) test_image_verifies

/-- A FW_LOAD whose every step passes. -/
theorem test_witness_FwLoad_loads :
    imageHeld.takes 0 0x0C01 = true ∧ fwPlaced imageHeld home 183 = true ∧ imageHeld.activeJob = none ∧
      ∃ v, runProg (fwProg (imageHeld.arguments 0)) (imageHeld.issued 0 0x0C01 7) = (v, .ok ()) := by
  have f :
      let u := imageHeld.issued 0 0x0C01 7
      let a := imageHeld.arguments 0
      let k := argAddr a 0 / 32
      (imageHeld.takes 0 0x0C01 = true ∧ fwPlaced imageHeld home 183 = true ∧ imageHeld.activeJob = none) ∧
        (arg a 2 != 0xFFFFFFFF && arg a 2 != 0 && argAddr a 0 % 32 == 0) = true ∧ fwPlaced u k (arg a 2) = true ∧ u.activeJob.isNone = true ∧
        u.readsAll k imageHead = true ∧ passes (fwHeader imageHead (arg a 2)) = true ∧ u.readsAll (k + 16) (zeroBlock commitmentDigest) = true ∧
        u.firmwareKey = trustedKey ∧ u.lcc.fuses.svnMin = 0 ∧ u.readsAll (k + (fwSection imageHead 1).1) [1] = true ∧
        u.readsAll (k + (fwSection imageHead 2).1) [2] = true := by decide +kernel
  have g : imageHead.length = 16 ∧ (zeroBlock commitmentDigest).length = 165 ∧ (fwSection imageHead 1).2 = 1 ∧ (fwSection imageHead 2).2 = 1 ∧
      sectionsDigest = headBytes imageHead 256 64 := by decide +kernel
  obtain ⟨f0, f1, f2, f3, f4, f5, f6, f7, f8, f9, f10⟩ := f
  obtain ⟨g1, g2, g3, g4, g5⟩ := g
  exact ⟨f0.1, f0.2.1, f0.2.2, fwProg_ends (h := imageHead) (block := zeroBlock commitmentDigest) (cc := [1]) (ker := [2]) f1 f2 f3 f4 g1 (passes_ok f5) f6 g2
    (test_image_is_trusted f7 f8) f9 g3.symm f10 g4.symm (test_digest_of_sections.trans g5)⟩

/-! A network of one layer: one channel, one column, INT8, a weight of zero and a POST entry of zero. -/

def networkDigest : Nat := 0x15fe0a576bdc136a426aed17c4440a09f4b9a8c656ce6a1235a7fd521a0fee5cb0135dc7547960595f153c27c261ac048235eb7bdf98346702e58aac6fc86a01
def networkMessage : Nat := 0x8b3518e55b07343a757d207f08b4e949bb6a477826a67616449ef22404443db8bf53c24e5c08a1d47abed50b6bfa5086b22acdf12036fb76b38071f018950871
def networkCommitment : Nat := 0xc7fbb04c8e194b6f79cef9aba13b059f7cbab80593a95db790b61fdff9fbfa760a9c065fc23abe3757ba517abb0f3eff

/-- The header of R295: tiling 12, one layer, the sections in words 181, 183 and 184, IMAGE_WORDS 185. -/
def networkHead : List Word :=
  let v := 0x46544E31 + 2 ^ 32 + 2 ^ 48 * 12 + 2 ^ 64 + 2 ^ 128 * 181 + 2 ^ 192 * 2 + 2 ^ 224 * 183 + 2 ^ 288 + 2 ^ 320 * 184 + 2 ^ 384 +
    2 ^ 512 * 185 + 2 ^ 2048 * networkDigest
  (List.range 16).map fun i => word (bits v (256 * i) 256)

/-- The layer record: SPLIT, C_IN, C_OUT, H_IN and W_IN 1. -/
def layerWord : Word := word (2 ^ 24 + 2 ^ 32 + 2 ^ 48 + 2 ^ 64 + 2 ^ 80)

/-- The image in buffer 0 of a DEFINED job, and a doorbell's arguments that name it. -/
def networkHeld : State :=
  holding home (networkHead ++ zeroBlock networkCommitment ++ [layerWord, 0, 0, 0]) (asked [0x31 + 2 ^ 16 * 2, 0]
    (withJob { busyJob [] with state := .defined } { served with lcc.fuses.lifeCode := 3, lcc.fuses.patternKeys := [trustedKey] }))

/-- The span of that buffer. -/
def netSpan : Span := ⟨home, 4096⟩

theorem test_digest_of_network : ofBytes (imageDigest [[layerWord, 0], [0], [0]]) = networkDigest := by decide +kernel

theorem test_network_verifies : mlDsaVerify zeroKey (wordsBytes networkHead) (toBytes networkCommitment 48 ++ zeroResponse) = true :=
  test_zero_verifies (d := networkMessage) (by decide +kernel) (by decide +kernel) (by decide +kernel)

/-- A NETWORK_LOAD whose every step passes. -/
theorem test_witness_NetworkLoad_loads :
    networkHeld.takes 0 0x0601 = true ∧ definedJob (networkHeld.arguments 0) networkHeld = some (1, { busyJob [] with state := .defined }) ∧
      (busyJob []).bufferSpan 0 = some netSpan ∧
      ∃ net, runProg (networkSteps 2 netSpan) (networkHeld.issued 0 0x0601 7) = (networkHeld.issued 0 0x0601 7, .ok net) := by
  have f :
      let u := networkHeld.issued 0 0x0601 7
      let h := networkHead
      (networkHeld.takes 0 0x0601 = true ∧ definedJob (networkHeld.arguments 0) networkHeld = some (1, { busyJob [] with state := .defined }) ∧
          (busyJob []).bufferSpan 0 = some netSpan) ∧
        u.readsAll netSpan.key h = true ∧ passes (atStep 1 (netHeaderCheck netSpan.len h)) = true ∧
        passes (atStep 2 (need (headBytes h 6 1 == 12 || u.grade == .ft9_64I) 0x0102)) = true ∧
        u.readsAll (netSpan.key + 16) (zeroBlock networkCommitment) = true ∧ u.patternKey (headBytes h 7 1) = trustedKey ∧
        u.readsAll (netSpan.key + (netSection h 1).1) [layerWord, 0] = true ∧ u.readsAll (netSpan.key + (netSection h 2).1) [0] = true ∧
        u.readsAll (netSpan.key + (netSection h 3).1) [0] = true := by decide +kernel
  have g :
      let h := networkHead
      let ls := layersOf [layerWord, 0] (headBytes h 8 2)
      h.length = min 16 netSpan.len ∧ (zeroBlock networkCommitment).length = 165 ∧ ([layerWord, 0].length = (netSection h 1).2 ∧ [(0 : Word)].length = (netSection h 2).2 ∧
        [(0 : Word)].length = (netSection h 3).2) ∧
        networkDigest = headBytes h 256 64 ∧ passes (eachLayer 5 (layerCheck (headBytes h 6 1)) ls 0) = true ∧
        passes (eachLayer 6 (fun l => need (formatsOk l) 0x0603) ls 0) = true ∧ passes (eachLayer 7 (layerExtents [0] [0]) ls 0) = true := by
    decide +kernel
  obtain ⟨f0, f1, f2, f3, f4, f5, f6, f7, f8⟩ := f
  obtain ⟨g1, g2, g3, g4, g5, g6, g7⟩ := g
  refine ⟨f0.1, f0.2.1, f0.2.2, networkSteps_ends (sp := netSpan) (h := networkHead) (a := [layerWord, 0]) (b := [0]) (c := [0]) g1 f1
    (passes_ok f2) (passes_ok f3) g2 f4 ?_ g3.1 f6 g3.2.1 f7 g3.2.2 f8 (test_digest_of_network.trans g4) (passes_ok g5) (passes_ok g6)
    (passes_ok g7)⟩
  rw [f5]
  exact test_zeroBlock rfl (by decide +kernel) test_network_verifies

/-- A device in a life cycle, with both of the keys that end the manufacture. -/
def aged (c : LifeCycle) : State := { served with lcc.fuses.lifeCode := BitVec.ofNat 3 c.code, lcc.fuses.fwKey := some 1, lcc.fuses.returnKey := some 2 }

theorem test_witness_LifecycleSet :
    (asked [3] (aged .manufacture)).takes 0 0x0C05 = true ∧ (asked [2] (aged .manufacture)).takes 0 0x0C05 = true ∧
      (asked [3] (aged .provisioned)).takes 0 0x0C05 = true ∧ (asked [5] (aged .field)).takes 0 0x0C05 = true ∧ (aged .field).activeJob = none ∧
      served.lcc.fuses.fwKey = none ∧ (aged .manufacture).lcc.fuses.fwKey.isSome = true ∧ (aged .provisioned).lcc.fuses.patternKeys.all Option.isNone = true := by
  decide +kernel

theorem test_witness_LifecycleSet_returned :
    (asked [4] (aged .provisioned)).takes 0 0x0C05 = true ∧
      (holding (payloadBase 0) (List.replicate 165 1) (aged .provisioned)).readsAll (payloadBase 0) (List.replicate 165 1) = true := by
  decide +kernel

/-- The message that authorises the return of serial number zero. -/
def returnMessage : List Byte := List.replicate 8 0 ++ [4] ++ List.replicate 7 0
def returnDigest : Nat := 0x21f1a3d63d4a1afd1bbe672fbb5c1f66e36830cd4455354db1b8fe195abdbd709fb566f57ecd442341f84f4c524fb2077a8c641833fb84568ffc63464e5ba0b7
def returnCommitment : Nat := 0x986273943ec00eacaf9f87701249f0f0a6e1422512796e44f7424213facc455a837a75e22951d68ae5ab0399eb8384c1

/-- A return that is authorised. -/
theorem test_witness_LifecycleSet_authorised :
    let ws := zeroBlock returnCommitment
    let bs := wordsBytes ws
    let s := holding (payloadBase 0) ws (asked [4] { aged .field with lcc.fuses.returnKey := trustedKey })
    s.takes 0 0x0C05 = true ∧ s.lcc.fuses.lifeCycle = .field ∧ bits (arg (s.arguments 0) 0) 0 3 = 4 ∧ ws.length = 165 ∧
      s.readsAll (payloadBase 0) ws = true ∧ s.activeJob = none ∧
      s.lcc.fuses.returnKey = some (BitVec.ofNat 512 (ofBytes (shake64 (bs.take 1952)))) ∧
      mlDsaVerify (bs.take 1952) (toBytes s.lcc.fuses.serial.toNat 8 ++ [4#8] ++ List.replicate 7 0) ((bs.drop 1952).take 3309) = true := by
  have w : (wordsBytes (zeroBlock returnCommitment)).take 1952 = zeroKey ∧
      ((wordsBytes (zeroBlock returnCommitment)).drop 1952).take 3309 = toBytes returnCommitment 48 ++ zeroResponse := by decide +kernel
  have m : toBytes (holding (payloadBase 0) (zeroBlock returnCommitment) (asked [4] { aged .field with lcc.fuses.returnKey := trustedKey })).lcc.fuses.serial.toNat 8
      ++ [4#8] ++ List.replicate 7 0 = returnMessage := by decide +kernel
  have v : mlDsaVerify zeroKey returnMessage (toBytes returnCommitment 48 ++ zeroResponse) = true :=
    test_zero_verifies (d := returnDigest) (by decide +kernel) (by decide +kernel) (by decide +kernel)
  dsimp only
  refine ⟨by decide +kernel, by decide +kernel, by decide +kernel, by decide +kernel, by decide +kernel, by decide +kernel, ?_, ?_⟩
  · rw [w.1, test_digest_of_key]
    decide +kernel
  · rw [w.1, w.2, m]
    exact v

theorem test_witness_KeyProvision :
    (asked [5, 1] served).takes 0 0x0C06 = true ∧ (asked [0] (aged .field)).takes 0 0x0C06 = true ∧ (asked [6] served).takes 0 0x0C06 = true ∧
      served.lcc.fuses.svnMin = 0 ∧ served.activeJob = none ∧ served.keyAt 0 = none ∧ (aged .manufacture).keyAt 0 = some 1 ∧
      (let s := asked [0] (holding (payloadBase 0) [1, 0] (aged .manufacture))
       s.takes 0 0x0C06 = true ∧ s.reads (payloadBase 0) 1 = true ∧ s.reads (payloadBase 0 + 1) 0 = true) := by decide +kernel

/-! ## Registers, rings and the Die Link -/

theorem test_witness_RegisterAccess :
    served.hostReaches = true ∧ served.register 0x18 = some 0 ∧ isLo 0x18 = false ∧ isHi 0x18 = false ∧ served.register 0x0FFFFC = none ∧
      (∃ o ∈ loOffsets, o % 4 = 0 ∧ isHi o = false ∧ (served.register o).isSome = true ∧ (served.register (o + 4)).isSome = true) ∧
      (served.box 0).busy = false ∧ (served.register 0x200000).isSome = true := by decide +kernel

theorem test_witness_RegisterAccess_grade :
    let s : State := { served with grade := .ft9_48I }
    s.hostReaches = true ∧ s.register 0xB001D4 = some 0 ∧ served.grade = .ft9_64I ∧ (served.register 0xB001D4).isSome = true := by decide +kernel

/-- The rings with an index set. -/
def ringed (sq cq eq lq : Ring) : State := { served with rings := { sq := sq, cq := cq, eq := eq, lq := lq } }

theorem test_witness_IndexWrites :
    let r : Ring := { tail := 4096, head := 0, gap := 2 }
    let v : Reg := 4096
    served.hostReaches = true ∧ v ≠ r.head ∧ (v - r.head).toNat ≤ (r.tail - r.head).toNat ∧ r.gap ≠ 0 ∧ (r.tail - v).toNat ≠ 4096 ∧
      (ringed {} {} {} {}).rings.sq.tail ≠ v ∧ (v - (ringed {} {} {} {}).rings.sq.tail).toNat ≤ 4096 ∧ ({} : Ring).gap = 0 := by decide +kernel

/-- A submission entry for list 2 of service 20 of job 0x31. -/
def submission : Word := word (1 + 2 ^ 8 * 2 + 2 ^ 16 * 20 + 2 ^ 32 * 0x31)

theorem test_witness_SubmissionEntries :
    let j : Job := { busyJob [] with lists := [⟨20, 2, [entryOf 0x0101 0 []]⟩] }
    let s : State := { holding sqBase [submission] (withJob j served) with rings.sq.tail := 1 }
    s.awake = true ∧ s.rings.sq.fill ≠ 0 ∧ s.reads (sqBase + s.rings.sq.head.toNat % 4096) submission = true ∧ s.runningJob = some (1, j) ∧
      j.id = BitVec.ofNat 16 (Word.get submission 32 16) ∧ (j.list? 20 2).isSome = true ∧ (busyJob []).list? 20 2 = none ∧ served.runningJob = none := by
  decide +kernel

theorem test_witness_SubmissionEntries_admitted :
    let j : Job := { busyJob [] with lists := [⟨20, 2, [entryOf 0x0101 0 []]⟩] }
    let s : State := { holding sqBase [submission] (withJob j served) with rings.sq.tail := 1 }
    admissionFail (releasedReady { s with rings.sq.head := s.rings.sq.head + 1 }) [entryOf 0x0101 0 []] true = none := by decide +kernel

theorem test_witness_SubmissionEntries_poisoned :
    let s : State := { served with rings.sq.tail := 1, mem := Memory.put served.mem sqBase (some (poisonStored (served.rowCol sqBase))) }
    s.rings.sq.fill ≠ 0 ∧ (readWord { num := 94 } (sqBase + s.rings.sq.head.toNat % 4096) s).2.bad = true := by decide +kernel

theorem test_witness_AlarmsAndInterrupts :
    let s : State := { served with link.vectors := upd served.link.vectors 4 fun x => { x with due := true } }
    s.hostReaches = true ∧ s.awake = true ∧ (nth s.link.vectors 4 {}).due = true ∧ s.linkUp? = true ∧ s.link.d3hot = false ∧
      (nth s.link.vectors 0 {}).due = false := by decide +kernel

theorem test_witness_AlarmsAndInterrupts_open :
    let s : State := { served with link.vectors := upd served.link.vectors 4 fun x => { x with due := true } }
    let x := nth s.link.vectors 4 {}
    x.due = true ∧ s.link.config.msixMask = false ∧ x.masked = false ∧ x.lastSent = none ∧ s.link.config.busMaster = true ∧ s.link.config.msixEnable = true := by decide +kernel

theorem test_witness_FunctionAndLink :
    served.awake = true ∧ served.linkUp? = true ∧ served.accepted = [] ∧ served.link.modules = 3 ∧
      ({ served with accepted := [2] } : State).accepted = [2] ∧ ({ served with link.modules := 0 } : State).linkUp? = false ∧
      (∀ x ∈ served.link.vectors, x.due = false) := by decide +kernel

theorem test_witness_FunctionAndLink_retrain :
    let s : State := { served with link.modules := 0, link.downAt := 5, gcnt := 10000005 }
    s.awake = true ∧ s.linkUp? = false ∧ s.link.downAt < s.now ∧ (s.now - s.link.downAt) % 10000000 = 0 ∧ (∀ x ∈ s.link.vectors, x.due = false) := by
  decide +kernel

theorem test_witness_FunctionAndLink_setUp :
    let s : State := { served with link := { modules := 3 } }
    s.awake = true ∧ s.linkUp? = true ∧ s.link.d3hot = false ∧ s.link.config.memoryEnable = false := by decide +kernel

theorem test_witness_Bar2Words :
    let s : State := { owned with memCtl.maintenance := true }
    owned.hostReaches = true ∧ owned.hostMayRead home = true ∧ (holding home [5] owned).reads home 5 = true ∧ owned.hostMayWrite (payloadBase 0) = true ∧
      owned.hostMayRead (97 * 32768) = false ∧ owned.hostMayWrite (97 * 32768) = false ∧ owned.memCtl.maintenance = false ∧
      s.hostMayWrite (payloadBase 0) = true ∧ s.memCtl.merge = [] ∧ home < 0x80000000 := by decide +kernel

/-! ## The Line Timer -/

theorem test_witness_QuadratureCounts :
    let s := lineState 0 fun l => { l with state := .running }
    s.awake = true ∧ s.decodes 0 = true ∧ (s.line.input 0).rho = 0 ∧ s.line.state ≠ .lost ∧ s.source = 0 ∧ s.role = .single ∧
      (s.line.input 0).n < s.encCounts ∧ s.lineField 2 0 ≠ 1 ∧ s.recentForward.length < s.lineField 5 4 ∧ s.enc1Mode ≠ 1 ∧
      ((s.line.input 0).levelA, (s.line.input 0).levelB) = (false, false) := by decide +kernel

theorem test_witness_QuadratureCounts_limits :
    let s := lineState 0 fun l => { l with state := .running, enc0 := { l.enc0 with rho := 16777215, illegalCount := 3 }, forwardTimes := [0, 0, 0, 0] }
    s.decodes 0 = true ∧ (s.line.input 0).rho + 1 = 16777216 ∧ 0 < (s.line.input 0).rho ∧ s.lineField 5 4 ≤ s.recentForward.length ∧
      s.line.overspeed = false ∧ (s.line.input 0).illegalWindow = s.now / 1000000 ∧ (s.line.input 0).illegalCount + 1 = 4 := by decide +kernel

/-- A LINE block with the Z input enabled, an offset of 10 and a tolerance of 4, and a mode of input 1. -/
def zBlk (mode : Nat) : Block :=
  blk 1 0 0xFFFF fun f => match f with | 0 => 4096 | 1 => 110 | 2 => 1 | 3 => 10 | 4 => 4 | 5 => 4 | 6 => mode | 7 => 16 | 11 => 16 | 13 => 2 | _ => 0

/-- The Line Timer with Z, the mode of input 1, and input 0 at a count. -/
def zLine (mode n : Nat) : State :=
  { served with devBlocks := [zBlk mode], line.state := .running, line.enc0.n := n }

theorem test_witness_EncoderEvents_z :
    (zLine 0 10).decodes 0 = true ∧ (zLine 0 10).lineField 2 0 = 1 ∧ (zLine 0 10).lineField 3 0 = 10 ∧ (zLine 0 10).lineField 4 4 = 4 ∧
      ((zLine 0 10).line.input 0).rho = 0 ∧ (zLine 0 10).line.state ≠ .lost ∧ (zLine 0 10).encCounts = 4096 ∧ (zLine 0 10).role = .single ∧
      ((4096 : Int) ∣ 10 - 6 - 4) ∧ ((4096 : Int) ∣ 10 - 14 - (-4)) ∧ ((4096 : Int) ∣ 10 - 2058 - 2048) ∧ (2 * (2048 : Int) ≤ 4096) ∧
      ((zLine 0 10).line.input 0).n = 10 := by decide +kernel

theorem test_witness_EncoderEvents_modes :
    (zLine 1 0).decodes 0 = true ∧ (zLine 1 0).enc1Mode = 1 ∧ (zLine 1 0).source = 0 ∧ ((zLine 1 0).line.input 1).lost = false ∧
      (zLine 1 0).lineBlock.isSome = true ∧ (zLine 1 0).line.enc0.lost = false ∧ (zLine 1 0).now % 100000 = 0 ∧ (zLine 2 0).enc1Mode = 2 ∧
      (zLine 2 0).lineBlock.isSome = true ∧ served.decodes 0 = false ∧
      ({ zLine 0 0 with line.overspeed := true } : State).line.overspeed = true := by decide +kernel

theorem test_witness_EncoderEvents_missing (b : Bool) :
    let s : State := { zLine 1 0 with line.enc1 := { sinceZ := 4100, zMissing := b } }
    s.decodes 1 = true ∧ s.lineField 2 0 = 1 ∧ (s.line.input 1).rho = 0 ∧ s.line.state ≠ .lost ∧ 1 ≠ s.source ∧ s.enc1Mode = 1 ∧
      s.encCounts + s.lineField 4 4 ≤ (s.line.input 1).sinceZ ∧ ((s.line.input 1).levelA, (s.line.input 1).levelB) = (false, false) ∧
      (s.line.input 1).zMissing = b := by revert b; decide +kernel

theorem test_witness_LinePositionsAndSync :
    let x : SyncArm := { mbx := 0, value := 5, limit := 10 }
    let s := lineState 0 fun l => { l with syncArm := [x] }
    s.awake = true ∧ s.now % 100000 = 0 ∧ s.now % 1000 = 0 ∧ s.role = .single ∧ s.line.syncArm = [x] ∧ s.now < x.value ∧ s.now < x.limit ∧
      ({ s with gcnt := 10 } : State).now = 10 ∧ s.line.state ≠ .running ∧ served.line.syncArm = [] := by decide +kernel

/-- A delay-list entry at key 3, of the service that owns list 0 at device level. -/
def dueEntry (event : Bool) : DelayEntry :=
  { key := 3, period := 0, event := event, syncObj := 7, tag := 1, late := false, owner := ⟨none, 0⟩ }

theorem test_witness_LineTicksFire :
    let s := lineState 0 fun l => { l with m := 16, lists := [[dueEntry false], [], [], []], tickDue := [true, false, false, false] }
    s.awake = true ∧ true ∈ s.line.tickDue ∧ s.dueEntries = [(0, dueEntry false)] ∧ 0 < s.line.lists.length ∧ s.isCycleEntry 0 (dueEntry false) = false ∧
      (lineState 0 fun l => { l with tickDue := [true, false, false, false] }).dueEntries = [] ∧ (∀ b ∈ served.line.tickDue, b = false) := by
  decide +kernel

theorem test_witness_LineTicksFire_several :
    let e (key tag : Nat) : DelayEntry := { dueEntry false with key := BitVec.ofNat 48 key, tag := BitVec.ofNat 32 tag }
    let s := lineState 0 fun l => { l with m := 16, v := 16, lists := [[e 9 1, e 3 2], [e 3 3], [], []], tickDue := [true, true, false, false] }
    true ∈ s.line.tickDue ∧ s.dueEntries = [(0, e 3 2), (1, e 3 3), (0, e 9 1)] ∧ (∀ x ∈ s.dueEntries, x.2.event = false ∧ s.isCycleEntry x.1 x.2 = false) ∧
      (∀ x ∈ s.dueEntries, keyDistance 16 x.2.key < 2 ^ 46) := by decide +kernel

/-- The RUNNING job of a control cycle on list 1 whose other list commits. -/
def cycleJob : Job :=
  { aJob .running with blocks := [blk 0x10 21 0x31 fun f => match f with | 0 => 1 | 1 => 100 | 3 => 7 | _ => 0], lists := [⟨21, 2, [entryOf 0x0301 0 []]⟩] }

theorem test_witness_LineTicksFire_cycle :
    let e : DelayEntry := { dueEntry false with tag := serviceTag 0x10 }
    let s : State := { withJob cycleJob (lineState 0 fun l => { l with m := 16, v := 16, lists := [[], [e], [], []], tickDue := [false, true, false, false] }) with
      sm.latched := 0 }
    true ∈ s.line.tickDue ∧ s.dueEntries = [(1, e)] ∧ 1 < s.line.lists.length ∧ s.isCycleEntry 1 e = true ∧ e.event = false ∧
      s.runningJob = some (1, cycleJob) ∧ cycleJob.commits = true ∧ s.smState ≠ 2 := by decide +kernel

/-- A follower with Peer Link 2 in use and up. -/
def follower : State :=
  { served with devBlocks := [lineBlk 2, blk 3 5 0xFFFF fun f => if f = 0 then 4 else 40], pl.links := upd served.pl.links 2 fun l => { l with up := true, farPos := 1 } }

theorem test_witness_LineDistribution :
    let x : LineSample := { g := 0, m := 5, v := 5, st := .running, reverse := false, late := false, link := some 2 }
    let s : State := { follower with line.samples := [x], gcnt := 60000000, line.state := .running }
    (lined 1).awake = true ∧ (lined 1).now % 1000 = 0 ∧ (lined 1).role = .master ∧ follower.role = .follower ∧ follower.peerEnabled 2 = true ∧
      (follower.peer 2).up = true ∧ follower.line.masterPos = none ∧ follower.now ≤ 0 + 1000 * follower.lineField 13 2 ∧
      x.g + 1000 * s.lineField 13 2 ≤ s.now ∧ s.line.adopt = false ∧ s.line.state ≠ .lost ∧
      s.line.lastApplied + 1000 * s.lineField 14 50 ≤ s.now ∧ (lined 0).role = .single ∧ s.line.lastSample ≤ 0 := by decide +kernel

theorem test_witness_LineDistribution_late :
    let s : State := { follower with line.state := .running, line.masterPos := some 1, gcnt := 60000000 }
    s.role = .follower ∧ s.peerEnabled 2 = true ∧ (s.peer 2).up = true ∧ s.line.masterPos = some (s.peer 2).farPos ∧
      0 + 1000 * s.lineField 13 2 < s.now ∧ s.line.lastSample ≤ 0 ∧ s.line.adopt = false ∧ s.line.state ≠ .lost := by decide +kernel

theorem test_witness_LineDistribution_lost :
    let s : State := { follower with line.state := .lost, line.remoteLost := true, gcnt := 60000000 }
    s.role = .follower ∧ s.line.remoteLost = true ∧ s.line.lastApplied + 1000 * s.lineField 14 50 ≤ s.now ∧ follower.line.remoteLost = false := by
  decide +kernel

/-! ## The Shuttle -/

/-- A job that is ARMED, with a CONTROL_CYCLE block on list 1 and one list of a NOP. -/
def armedJob : Job :=
  { aJob .armed with blocks := [blk 0x10 21 0x31 fun f => match f with | 0 => 1 | 1 => 100 | 3 => 7 | _ => 0], lists := [⟨20, 2, [entryOf 0x0101 0 []]⟩] }

theorem test_witness_LaunchAndTriggerings_launch :
    let s := withJob armedJob served
    s.awake = true ∧ s.activeJob = some (1, armedJob) ∧ armedJob.launchAt ≤ s.now ∧ (armedJob.blockOf 0x10).isSome = true ∧ (aJob .armed).blockOf 0x10 = none ∧
      s.now < { armedJob with launchAt := 1 }.launchAt ∧ served.activeJob = none ∧ Word.get (word (2 ^ 15 + 2 ^ 8 * 20 + 2)) 15 1 = 1 := by
  decide +kernel

/-- A signal for object 7. -/
def aSignal : SignalMsg := { obj := 7, inc := 1, tag := 0, sheet := none, golden := false, firing := none, item := none }

/-- A triggering of list 2 of service 20. -/
def aTriggering : Triggering := { service := 20, list := 2, tag := 0, sheet := none, golden := false }

/-- The RUNNING job with a signal, a sync object that it fires, and a triggering that waits. -/
def triggered : State :=
  { withJob { armedJob with state := .running } served with
    shu.signals := [aSignal], shu.syncs := [⟨7, 20, 2, 3, 2, true⟩], shu.triggerings := [aTriggering] }

theorem test_witness_LaunchAndTriggerings_signal :
    triggered.shu.signals = [aSignal] ∧ aSignal.item = none ∧ aSignal.firing = none ∧ (triggered.shu.syncs.find? (·.obj == 7)).isSome = true ∧
      triggered.shu.items = [] ∧ triggered.activeJob.isSome = true ∧ (∀ o ∈ served.shu.syncs, o.obj ≠ 7) := by decide +kernel

theorem test_witness_LaunchAndTriggerings_signals :
    let waiter : Item := { anItem (BitVec.ofNat 512 (0x0101 + 2 ^ 20 + 2 ^ 48 * 7)) with phase := .waiting, synced := false }
    let s : State := { triggered with shu.items := [waiter] }
    let fired : SignalMsg := { aSignal with firing := some ⟨0x50000, 3, false⟩ }
    s.shu.signals = aSignal :: [] ∧ s.shu.syncs.find? (·.obj == aSignal.obj) = some ⟨7, 20, 2, 3, 2, true⟩ ∧ s.activeJob = some (1, { armedJob with state := .running }) ∧
      (2 + aSignal.inc) / 3 ≠ 0 ∧ s.shu.items = [waiter] ∧ waiter.phase = .waiting ∧ Entry.waitEn waiter.entry = true ∧ Entry.fence waiter.entry = false ∧
      Entry.waitSync waiter.entry = 7 ∧ s.shu.gets = [] ∧ s.shu.panels = [] ∧ ({ armedJob with state := .running } : Job).sheetBlock = none ∧
      fired.firing.isSome = true ∧ ({ aSignal with item := some 1 } : SignalMsg).item = some 1 := by decide +kernel

/-- Items that fill the ready entries of a host triggering. -/
def crowd (n : Nat) (phase : ItemPhase) (pool : Pool) : List Item :=
  List.replicate n { anItem (entryOf 0x0101 0 []) with phase := phase, pool := pool }

theorem test_witness_LaunchAndTriggerings_host :
    let j : Job := { busyJob [] with lists := [⟨20, 2, [entryOf 0x0101 0 []]⟩] }
    let w (n : Nat) : State := { holding sqBase [submission] (withJob j served) with rings.sq.tail := 1, shu.items := crowd n .ready .generalReady }
    let u : State := releasedReady { w 2048 with rings.sq.head := (w 2048).rings.sq.head + 1 }
    (w 2048).rings.sq.fill ≠ 0 ∧ (w 2048).reads sqBase submission = true ∧ Word.get submission 0 8 = 1 ∧ Word.get submission 24 8 = 0 ∧
      Word.get submission 48 208 = 0 ∧ 2048 < u.generalReady + 1 ∧ u.generalReady + 1 ≤ 3072 ∧ u.generalMatch + 0 ≤ 12288 := by decide +kernel

theorem test_witness_LaunchAndTriggerings_trigger :
    triggered.shu.triggerings = [aTriggering] ∧ triggered.runningJob = some (1, { armedJob with state := .running }) ∧
      ({ armedJob with state := .running } : Job).list? 20 2 = some ⟨20, 2, [entryOf 0x0101 0 []]⟩ ∧ Entry.ordered (entryOf 0x0101 0 []) = false ∧
      triggered.shu.gets = [] ∧ triggered.shu.panels = [] ∧ triggered.generalReady + 1 ≤ 3072 ∧ Entry.waitEn (entryOf 0x0101 0 []) = false ∧
      ({ withJob (aJob .running) served with shu.triggerings := [aTriggering] } : State).runningJob = some (1, aJob .running) := by decide +kernel

theorem test_witness_LaunchAndTriggerings_admitted :
    let u : State := releasedReady { triggered with shu.triggerings := [] }
    u.generalReady + 1 ≤ 3072 ∧ u.generalMatch ≤ 12288 ∧ flowEntries [entryOf 0x0101 0 []] 0 = 0 := by decide +kernel

/-- A READY item of an entry. -/
def readied (e : Entry) : State := { withJob (busyJob []) served with shu.items := [{ anItem e with phase := .ready }] }

theorem test_witness_EngineGets :
    bestFor (.moveEngine 3) (readied (entryOf 0x0A01 3 [])) = some { anItem (entryOf 0x0A01 3 []) with phase := .ready } ∧
      (readied (entryOf 0x0A01 3 [])).mayGet (.moveEngine 3) = true ∧ served.mayGet (.panel 0) = true ∧ bestFor (.panel 0) served = none ∧
      (readied (entryOf 0x0602 0 [])).itemClass { anItem (entryOf 0x0602 0 []) with phase := .ready } = .tensor ∧
      State.reset.mayGet (.panel 0) = false := by decide +kernel

theorem test_witness_EngineGets_widths :
    let word (w : Nat) : Word := BitVec.ofNat 256 (1 + 2 ^ 32 + 2 ^ 64 + 2 ^ 112 * w)
    let s (w : Nat) := holding home [word w] (readied (entryOf 0x0602 0 [some (0, 0, 1), none, none, none]))
    let it : Item := { anItem (entryOf 0x0602 0 [some (0, 0, 1), none, none, none]) with phase := .ready }
    tensorWidth (s 1) it = 1 ∧ 1 < tensorWidth (s 2) it ∧ (s 1).shu.gets = [] ∧ (s 1).shu.panels = [] := by decide +kernel

theorem test_witness_ItemsComplete :
    let run (op : Nat) : State := readied (entryOf op (7 * 2 ^ 16) [])
    served.item? 1 = none ∧ (run 0x0101).item? 1 = some { anItem (entryOf 0x0101 (7 * 2 ^ 16) []) with phase := .ready } ∧
      Entry.op (entryOf 0x0101 0 []) = 0x0101 ∧ Entry.op (entryOf 0x0202 0 []) = 0x0202 ∧ Entry.op (entryOf 0x0201 0 []) = 0x0201 ∧
      (∃ o ∈ triggered.shu.syncs, o.obj = bits (Entry.param (entryOf 0x0201 (7 * 2 ^ 16) [])) 16 16) ∧
      (∀ o ∈ (run 0x0201).shu.syncs, o.obj ≠ 7) ∧ Entry.ordered (anItem (entryOf 0x0101 0 [])).entry = false := by decide +kernel

theorem test_witness_ItemsComplete_results :
    let it : Item := { anItem (entryOf 0x0101 0 []) with result := some (done .ok) }
    let s : State := { withJob (busyJob []) served with shu.items := [it] }
    let w : State := { s with shu.items := [{ it with phase := .waiting, result := none }], gcnt := 100000 }
    s.item? 1 = some it ∧ it.phase = .running ∧ it.result = some (done .ok) ∧ 1000 * ceilDiv (it.admitted + 1000 * it.limit) 1000 ≤ w.now ∧
      it.sheet = some 0 ∧ ({ it with sheet := none } : Item).golden = false ∧ s.shu.panels = [] := by decide +kernel

theorem test_witness_ReadinessAndDeadline :
    let it : Item := { anItem (entryOf 0x0A01 3 []) with phase := .released }
    let s : State := { withJob (busyJob [channelBlk]) served with shu.items := [it] }
    let c : Cycle := { tag := 0, gFire := 0, key := 0 }
    s.awake = true ∧ s.shu.gets = [] ∧ s.shu.panels = [] ∧ s.itemClass it ≠ .tensor ∧
      engineTakes s (.moveEngine 3) (s.itemClass it) = true ∧ s.runningJob.isSome = true ∧ (busyJob [channelBlk]).channelBlock 3 = some channelBlk ∧
      c.gFire + 1000 * channelBlk.field 12 ≤ ({ s with gcnt := 10000000 } : State).now ∧ s.now < c.gFire + 1000 * channelBlk.field 12 ∧
      it.jobId = (busyJob [channelBlk]).id ∧ it.service = channelBlk.service ∧ it.tag = c.tag ∧ served.runningJob = none ∧
      (busyJob []).channelBlock 3 = none := by decide +kernel

theorem test_witness_ReadinessAndDeadline_cycle :
    let x : Cycle := { tag := 0, gFire := 0, key := 0 }
    let it : Item := anItem (entryOf 0x0902 0 [])
    let s (p : ItemPhase) : State :=
      { withJob (busyJob [channelBlk]) served with shu.items := [{ it with phase := p }], shu.cycles := [x], gcnt := 10000000 }
    (s .running).shu.cycles = [x] ∧ x.gFire + 1000 * channelBlk.field 12 ≤ (s .running).now ∧ x.passed.getLsbD 3 = false ∧ it.phase = .running ∧
      (s .waiting).shu.items = [{ it with phase := .waiting }] ∧ ({ x with passed := 8 } : Cycle).passed.getLsbD 3 = true := by decide +kernel

/-! ## The operations of the engines -/

/-- A RUNNING item of an operation whose four operands are words 0, 64, 128 and 192 of its job's buffer, 32 words each. -/
def onWords (op param : Nat) (bs : List Block) (ws : List Word) : State :=
  holding home ws (engaged (entryOf op param [some (0, 0, 32), some (0, 64, 32), some (0, 128, 32), some (0, 192, 32)]) bs served)

/-- Its item. -/
def theItem (op param : Nat) : Item := anItem (entryOf op param [some (0, 0, 32), some (0, 64, 32), some (0, 128, 32), some (0, 192, 32)])

/-- The item runs, and its operands are the spans they name. -/
def onItem (op param : Nat) (bs : List Block) (s : State) : Bool :=
  s.awake && decide (s.runningItem 1 op = some (theItem op param, busyJob bs)) &&
    (List.range 4).all fun i => decide ((busyJob bs).operandSpan (theItem op param).entry i = some ⟨home + 64 * i, 32⟩)

/-- For the operations of the engines: each has a RUNNING item in some state. -/
theorem test_witness_items :
    (([0x0102, 0x0203, 0x0204, 0x0301, 0x0302, 0x0303, 0x0304, 0x0402, 0x0501, 0x0503, 0x0601, 0x0602, 0x0701, 0x0702, 0x0802, 0x0803].all fun op =>
      onItem op 1 [] (onWords op 1 [] [])) &&
     ([0x0401, 0x0502, 0x0504, 0x0801, 0x0901, 0x0902, 0x0903, 0x0A01, 0x0A02, 0x0A03, 0x0B01, 0x0B02, 0x0B03, 0x0C01].all fun op =>
      onItem op 0 [channelBlk] (onWords op 0 [channelBlk] []))) = true := by decide +kernel

/-- The word of a delay entry with KEY 5 that sends to object 7 under tag 9. -/
def delayOf : Word := word (5 + 2 ^ 80 * 7 + 2 ^ 96 * 9)

theorem test_witness_ControlAndFrameOperations_delay :
    let s : State := { onWords 0x0203 1 [] [delayOf] with shu.syncs := [⟨7, 20, 0, 1, 2, true⟩] }
    onItem 0x0203 1 [] s = true ∧ s.reads home delayOf = true ∧ (s.runningItem 1 0x0203).isSome = true ∧ Word.get delayOf 128 128 = 0 ∧
      (∃ o ∈ s.shu.syncs, o.obj = 7) ∧ nth s.line.lists 1 [] = [] ∧ (onWords 0x0204 1 [] [9]).reads home 9 = true ∧ Word.get (9 : Word) 32 224 = 0 := by
  decide +kernel

/-- A CAMERA_PORT block of 8 pixels in 2 lines for service 20 of job 0x31. -/
def cameraBlk (overrun : Nat) : Block :=
  blk 6 8 0xFFFF fun f => match f with | 0 => 4 | 4 => 8 | 5 => 2 | 6 => 4 | 7 => overrun | 8 => 1 | 9 => 48 | 10 => 40 | 11 => 0x31 | 12 => 20 | _ => 0

theorem test_witness_ControlAndFrameOperations_frames :
    let s : State := { onWords 0x0801 0 [] [] with devBlocks := [cameraBlk 0] }
    let full : State := setPort 0 (fun p => { p with bufs := upd p.bufs 2 fun b => { b with state := .full } }) s
    (s.runningItem 1 0x0801).isSome = true ∧ bits (Entry.param (theItem 0x0801 0).entry) 2 2 = 0 ∧ (s.camera 0).isSome = true ∧
      (∀ i, i < 4 → ((s.fiPort 0).buf i).state ≠ .full) ∧ ((full.fiPort 0).buf 2).state = .full ∧
      (∀ k, k < 4 → k ≠ 2 → ((full.fiPort 0).buf k).state ≠ .full) ∧ (full.fiPort 0).bufs.length = 4 ∧
      (busyJob []).goldenPort 0 = false ∧ ((s.fiPort 0).buf 0).state ≠ .held := by decide +kernel

theorem test_witness_ControlAndFrameOperations_takes :
    let full (order sheet : Nat) : FrameBuf := { state := .full, order := order, sheet := BitVec.ofNat 32 sheet }
    let s (param : Nat) : State :=
      { setPort 0 (fun p => { p with bufs := [full 1 5, full 2 0, full 0 0xFFFFFFFF, {}] }) (onWords 0x0801 param [] []) with devBlocks := [cameraBlk 0] }
    ((s 0).runningItem 1 0x0801).isSome = true ∧ ((s 0).camera 0).isSome = true ∧ 0 < (s 0).fi.ports.length ∧ ((s 0).fiPort 0).bufs.length = 4 ∧
      (((s 0).fiPort 0).buf 1).state = .full ∧
      (∀ k, k < 4 → k ≠ 1 → (((s 0).fiPort 0).buf k).state = .full → (((s 0).fiPort 0).buf k).order < (((s 0).fiPort 0).buf 1).order) ∧
      ((s 4).runningItem 1 0x0801).isSome = true ∧ bits (Entry.param (theItem 0x0801 4).entry) 2 2 = 1 ∧ (theItem 0x0801 4).sheet = some 0 ∧
      (((s 4).fiPort 0).buf 1).sheet = 0 ∧ (((s 4).fiPort 0).buf 1).noSheet = false ∧
      (∀ k, k < 4 → k ≠ 1 → (((s 4).fiPort 0).buf k).state = .full → (((s 4).fiPort 0).buf k).sheet ≠ 0) ∧
      (∀ i, i < 4 → (((s 4).fiPort 0).buf i).sheet ≠ 9) ∧
      ((s 8).runningItem 1 0x0801).isSome = true ∧ bits (Entry.param (theItem 0x0801 8).entry) 2 2 = 2 ∧ (theItem 0x0801 8).sheet = some 0 := by
  decide +kernel

/-- A SHEET_LOOP block of service 20: port 0, list 1, golden pass at fraction 100 on object 9 every sheet. -/
def sheetBlk : Block :=
  blk 0x14 20 0x31 fun f => match f with | 1 => 1 | 3 => 0x8000 | 4 => 100 | 8 => 7 | 9 => 9 | 10 => 4 | 11 => 8 | 12 => 8 | 15 => 16 | 16 => 1 | _ => 0

theorem test_witness_ControlAndFrameOperations_golden :
    let s : State := { onWords 0x0803 0 [sheetBlk] [] with shu.syncs := [⟨9, 20, 0, 1, 2, true⟩] }
    (s.runningItem 1 0x0803).isSome = true ∧ (busyJob [sheetBlk]).sheetBlock = some sheetBlk ∧ (theItem 0x0803 0).sheet = some 0 ∧ sheetBlk.field 16 = 1 ∧
      ¬ s.sheet.sheetsSince < sheetBlk.field 18 ∧ s.sheet.pass = false ∧ s.realFrame (busyJob [sheetBlk]) 0 = false ∧
      keyDue (BitVec.ofNat 48 100) s.line.m = false ∧ (s.delayList 1).length < 1024 ∧ (∃ o ∈ s.shu.syncs, o.obj = sheetBlk.field 9) ∧
      1 ≤ ((BitVec.ofNat 48 100) - s.listPos 1).toNat := by decide +kernel

/-- The record of sheet 0 with 8 values and 8 defects. -/
def sheetRecord : List Word := word (2 ^ 64 * 8 + 2 ^ 80 * 8) :: List.replicate 6 0

theorem test_witness_ControlAndFrameOperations_record :
    let s := onWords 0x0B02 0 [sheetBlk] sheetRecord
    (s.runningItem 1 0x0B02).isSome = true ∧ sheetRecord.length = 6 + ceilDiv (sheetBlk.field 11) 8 ∧ s.readsAll home sheetRecord = true ∧
      Word.get (nth sheetRecord 0 0) 64 16 = sheetBlk.field 11 ∧ Word.get (nth sheetRecord 0 0) 80 5 = sheetBlk.field 12 ∧
      recordReserved sheetRecord = true ∧ s.releasePassed sheetBlk 0 = false ∧
      ¬ 131072 < keyDistance (sheetPos 0 (sheetBlk.field 3)) s.line.m ∧ s.sheet.records = [] ∧
      ({ s with sheet.released := some 0 } : State).releasePassed sheetBlk 0 = true ∧
      2 ≤ ({ s with sheet.records := [(1, []), (2, [])] } : State).sheet.records.length := by decide +kernel

/-- A golden CORRECTION_SEND whose record and expected record stand in the buffer. -/
theorem test_witness_ControlAndFrameOperations_goldenRecord :
    let b : Block := { sheetBlk with service := 20 }
    let s := onWords 0x0B02 1 [b] sheetRecord
    let ws := sheetRecord ++ List.replicate (recordWords b - sheetRecord.length) 0
    (s.runningItem 1 0x0B02).isSome = true ∧ (busyJob [b]).sheetBlock = some b ∧ ws.length = recordWords b ∧ recordWords b ≤ 32 ∧
      (busyJob [b]).bufferSpan (b.field 17) = some ⟨home, 4096⟩ ∧ s.readsAll home ws = true ∧ recordCounts ws (b.field 11) (b.field 12) = true ∧
      recordReserved ws = true ∧ Word.get (nth ws 0 0) 0 32 = 0 ∧ (theItem 0x0B02 1).sheet = some 0 := by decide +kernel

/-- An OCCUPANCY block of service 20 with both handles on buffer 0 and camera port 0 and link 2 as sources, the link's X offset given. -/
def shiftedBlk (dx : Nat) : Block :=
  blk 0x12 20 0x31 fun f => match f with
    | 0 => 5000 | 4 => 8 | 6 => 2 | 7 => 1 | 8 => 6 | 9 => 12 | 10 => 18 | 11 => 4 | 14 => dx | 19 => 5 | _ => 0

/-- The one without offset. -/
def occBlk : Block := shiftedBlk 0

/-- Its context. -/
def occCtx : OccCtx := ⟨occBlk, 0x31, home, home⟩

/-- An epoch. -/
def anEpoch (n : Nat) : Epoch := { number := BitVec.ofNat 32 n, t0 := 0, forced := 0, rebuild := false, stale := false, log := false, fill := 0 }

/-- The layers live, epoch 4 committed and not applied, epoch 3 applied under an open gate. -/
def live (s : State) : State :=
  { s with occ.live := true, occ.committed := some (anEpoch 4), occ.applied := some (anEpoch 3), trc.gate := some 3, pat.active := some aPattern }

theorem test_witness_OccupancyOperations_epochs :
    let s := live (onWords 0x0301 0 [occBlk] [])
    let t := live (onWords 0x0302 0 [occBlk] [])
    (s.runningItem 1 0x0301).isSome = true ∧ occCtxOf (busyJob [occBlk]) = some occCtx ∧ s.occ.live = true ∧ occCtx.slice s.now = s.occ.tc ∧
      (t.runningItem 1 0x0302).isSome = true ∧ t.occCtx = some occCtx ∧ t.occ.committedApplied = false ∧ t.applyWaits (theItem 0x0302 0) = false ∧
      served.occ.live = false ∧ served.occCtx = none := by decide +kernel

theorem test_witness_OccupancyOperations_inject :
    let one : Word := word (2 ^ 32)
    let mask : Word := word 1
    let s (w : Word) := live (onWords 0x0303 0 [occBlk] [w])
    ((s one).runningItem 1 0x0303).isSome = true ∧ (s one).occCtx = some occCtx ∧ (s one).reads home one = true ∧ (s mask).reads home mask = true ∧
      passes (injectCheck occCtx 0x12 32 (injectParam one.toNat)) = true ∧ (injectParam one.toNat).form = 0 ∧ (injectParam one.toNat).count = 1 ∧
      passes (injectCheck occCtx 0x12 32768 (injectParam mask.toNat)) = true ∧ (injectParam mask.toNat).form = 1 ∧
      passes (injectCheck occCtx 0x12 32 (injectParam 3)) = false ∧ (s one).reads (home + 64) 0 = true := by decide +kernel

theorem test_witness_OccupancyOperations_read :
    let w : Word := word (3 + 2 ^ 64)
    let s : State := { live (onWords 0x0304 0 [occBlk] [w]) with pat.active := some { aPattern with edges := 1 } }
    (s.runningItem 1 0x0304).isSome = true ∧ s.reads home w = true ∧ passes (edgeReadCheck w.toNat 32 32) = true ∧ s.reads (home + 64) 0 = true ∧
      s.trc.gate = some (BitVec.ofNat 32 w.toNat) ∧ (anEpoch 3).number = BitVec.ofNat 32 w.toNat ∧ s.reads (edgeKey 0) 0 = true ∧
      passes (edgeReadCheck (word 3).toNat 32 32) = false ∧ (BitVec.ofNat 32 4 : Reg) = (anEpoch 4).number ∧ s.occ.committedApplied = false := by decide +kernel

theorem test_witness_OccupancyOperations_inject_times :
    let mask : Word := word 1
    let pred : Word := word (2 + 2 ^ 64 * 1)
    let s (w : Word) := live (onWords 0x0303 0 [occBlk] [w])
    occCtx.slice (s mask).now = (s mask).occ.tc ∧ (injectParam mask.toNat).time = 0 ∧ (injectParam pred.toNat).form = 2 ∧
      (theItem 0x0303 0).started = 0 := by decide +kernel

theorem test_witness_OccupancyOperations_step :
    let s : State := { live (onWords 0x0301 0 [occBlk] []) with shu.cycles := [{ tag := 0, gFire := 0, key := 0 }] }
    (s.runningItem 1 0x0301).isSome = true ∧ (stepOne 1 (theItem 0x0301 0).tag s).shu.cycles = [{ tag := 0, gFire := 0, key := 0, stepped := true }] := by
  decide +kernel

/-- A commit beside an injection of item 2, and an injection half done. -/
def injecting : State :=
  let s := live (onWords 0x0301 0 [occBlk] [])
  { s with shu.items := s.shu.items ++ [{ theItem 0x0303 0 with id := 2 }] }

theorem test_witness_OccupancyOperations_commit_amid :
    (injecting.runningItem 1 0x0301).isSome = true ∧ occCtx.slice injecting.now = injecting.occ.tc ∧
      ((stepOne 1 (theItem 0x0301 0).tag injecting).injectItem).isSome = true ∧ (live (onWords 0x0301 0 [occBlk] [])).injectItem = none := by decide +kernel

theorem test_witness_OccupancyOperations_resumes :
    let w : Word := word (2 ^ 32)
    let x : Injection := ⟨1, w, 0, false⟩
    let s : State := { live (onWords 0x0303 0 [occBlk] [w]) with occ.injecting := some x }
    (s.runningItem 1 0x0303).isSome = true ∧ s.occCtx = some occCtx ∧ s.occ.injecting = some x ∧ x.item = (theItem 0x0303 0).id ∧
      (injectParam x.param.toNat).form = 0 ∧ (injectParam x.param.toNat).count = 1 ∧
      ends (runProg (injectUnits occCtx (theItem 0x0303 0) (injectParam x.param.toNat) (home + 64) 0 1)
        { s with occ.loadBad := false, occ.injecting := none }) = true ∧
      (live (onWords 0x0303 0 [occBlk] [w])).halfDone 1 = none := by decide +kernel

theorem test_witness_OccupancyOperations_groups :
    let s (n : Nat) : State := { served with sm.running := [⟨⟨.tracerGroup, Fin.ofNat 64 n, 0⟩, 0⟩] }
    (s 0).testedGroups.getLsbD (0 % 64 / 8) = true ∧ (s 3).testedGroups.getLsbD (0 % 64 / 8) = false := by decide +kernel

/-- Search operations on channel 3 and the occupancy service of another block. -/
def searchBlks : List Block := [channelBlk, { occBlk with service := 22 }]

/-- A search operation whose operands begin with a word. -/
def searching (op param : Nat) (ws : List Word) : State := live (onWords op param searchBlks ws)

theorem test_witness_SearchAndSeamOperations_search :
    let repaired : Word := word (2 ^ 48 * 2)
    let s := searching 0x0401 0 [repaired]
    (s.runningItem 1 0x0401).isSome = true ∧ (busyJob searchBlks).itemChannel (theItem 0x0401 0) = some channelBlk ∧ s.pat.active = some aPattern ∧
      s.occCtx.isSome = true ∧ s.openGate = some (anEpoch 3) ∧ s.reads home repaired = true ∧ Word.get repaired 96 32 = (theItem 0x0401 0).tag.toNat ∧
      channelBlk.field 4 = 1 ∧ Word.get repaired 48 3 = 2 ∧ ((searching 0x0402 0 []).runningItem 1 0x0402).isSome = true ∧
      ({ s with trc.gate := none } : State).openGate = none := by decide +kernel

/-- The set-up of the SEARCH of a trajectory at rest, and of its DARN. -/
def setUp (op tag : Nat) : Bool :=
  let s := searching op 0 [word (2 ^ 96 * tag)]
  match s.occCtx with
  | some c =>
    match runProg (searchSetup (theItem op 0) (busyJob searchBlks) channelBlk aPattern c (anEpoch 3)) s with
    | (t, .ok x) => kindAt (t.chan 3).history x.gBase == .rest && x.start.ahead.isNone && x.start.node == (t.chan 3).goal && !x.goalChanged &&
        t.reads home (word (2 ^ 96 * tag))
    | (_, .error _) => false
  | none => false

theorem test_witness_SearchAndSeamOperations_rest : (setUp 0x0401 1 && setUp 0x0402 0) = true := by decide +kernel

/-- A record of windows on edges 0 and on, the first from 0 to 5,000 and the second, if there are two, up to 10,000. -/
def windowsRecord (n : Nat) : List Word :=
  word (1 + 2 ^ 96 * n) :: (List.replicate 8 0 ++ [word (2 ^ 64 * 5000), word (1 + 2 ^ 32 * 5000 + 2 ^ 64 * 10000)] ++ List.replicate 70 0)

/-- A DARN while channel 3 follows such a record to its goal, with the words of edges 0 and 1. -/
def darns (n goal e0 e1 : Nat) : State :=
  let s := holding (edgeKey 0) [word e0, word e1] (searching 0x0402 0 [0])
  { setChan 3 (fun c => { c with goal := goal, history := [⟨0, .go ⟨windowsRecord n, 0, 0, 0, 0⟩⟩] }) s with trc.valid := 0xFFFF }

/-- How it goes on: 0 clear, 1 blocked ahead of the path, 2 repaired, 3 without a repair; and the groups of banks that it has read. -/
def darnEnds (n goal e0 e1 : Nat) : Option (Nat × BitVec 8) :=
  let s := darns n goal e0 e1
  match s.occCtx with
  | some c =>
    match runProg (searchSetup (theItem 0x0402 0) (busyJob searchBlks) channelBlk aPattern c (anEpoch 3)) s with
    | (t, .ok x) =>
      if x.goalChanged || kindAt (t.chan 3).history x.gBase != .go then none
      else match planAt (t.chan 3).history x.gBase, runProg (aheadClear x) t with
        | some _, (t1, .ok false) => some (1, t1.trc.readGroups)
        | some pl, (t1, .ok true) => (match runProg (activePath x pl) t1 with
          | (t2, .ok a) => (match runProg (firstBlocked x pl.gBase a.windows 0) t2 with
            | (t3, .ok none) => some (0, t3.trc.readGroups)
            | (t3, .ok (some n)) => (match runProg (repair x a (t.chan 3).goal n) t3 with
              | (t4, .ok (run, _)) => some (if run.emitted.isEmpty then 3 else 2, t4.trc.readGroups)
              | (_, .error _) => none)
            | (_, .error _) => none)
          | (_, .error _) => none)
        | _, _ => none
    | (_, .error _) => none
  | none => none

theorem test_witness_SearchAndSeamOperations_darn :
    ((darns 1 0 0 0).runningItem 1 0x0402).isSome = true ∧ darnEnds 1 0 0 0 = some (0, 1) ∧ darnEnds 1 0 1 0 = some (1, 1) ∧
      darnEnds 2 0 0 1 = some (2, 1) ∧ darnEnds 2 1 0 1 = some (3, 1) ∧
      ({ served with sm.running := [⟨⟨.tracerGroup, 0, 0⟩, 0⟩] } : State).testedGroups = 1 := by decide +kernel

theorem test_witness_SearchAndSeamOperations_check :
    let ws : List Word := List.replicate 81 0
    let one : List Word := 1 :: List.replicate 80 0
    let s (ws : List Word) : State := { searching 0x0901 0 ws with shu.kernels := [(0, channelBKernel)] }
    let e := entryOf 0x0901 0 [some (0, 0, 96), none, some (0, 192, 32), some (0, 256, 1)]
    ((s ws).runningItem 1 0x0901).isSome = true ∧ ((theItem 0x0901 0).core, kernelOf (theItem 0x0901 0).entry) ∈ (s ws).shu.kernels ∧
      (s ws).readsAll home ws = true ∧ recField ws 0 1 = 0 ∧ recField one 0 1 = 1 ∧ recField one 64 32 ≠ 3 ∧
      (busyJob searchBlks).operandSpan e 3 = some ⟨home + 256, 1⟩ := by decide +kernel

theorem test_witness_SearchAndSeamOperations_kernel :
    let s : State := { searching 0x0C01 9 [] with shu.kernels := [(0, 9)] }
    (s.runningItem 1 0x0C01).isSome = true ∧ ((theItem 0x0C01 9).core, kernelOf (theItem 0x0C01 9).entry) ∈ s.shu.kernels ∧
      s.readsAll home (List.replicate 32 0) = true ∧ (List.replicate 32 (0 : Word)).length = 32 := by decide +kernel

theorem test_witness_SearchAndSeamOperations_stitch :
    let s : State := { searching 0x0902 0 [word (2 ^ 37 * 2)] with sm.latched := 0 }
    (s.runningItem 1 0x0902).isSome = true ∧ s.smState ≠ 2 ∧ (theItem 0x0902 0).tag ∉ (s.chan 3).released ∧ 3 < s.chans.length ∧
      ¬ (s.cycleOf 0).gFire + 1000 * channelBlk.field 12 ≤ s.now ∧ (searching 0x0902 0 []).smState = 2 ∧
      (match stitchWalk (theItem 0x0902 0) channelBlk ⟨home, 32⟩ ⟨⟨home + 64, 32⟩, ⟨home + 128, 32⟩⟩ s with
       | (_, some (_, .noPath r)) => decide (r = 0x0401)
       | _ => false) = true := by decide +kernel

theorem test_witness_SearchAndSeamOperations_disagree :
    let ops : WalkOps := ⟨⟨home + 64, 32⟩, ⟨home + 128, 32⟩⟩
    let walk (s : State) : Option WalkEnd := (stitchWalk (theItem 0x0902 0) channelBlk ⟨home, 32⟩ ops s).2.map (·.2)
    let named (r : Nat) : State := { searching 0x0902 0 [word r] with sm.latched := 0 }
    let listed : State := { named 0 with tks.disagreed := [home] }
    let poisoned : State := { named 0 with mem := Memory.put (named 0).mem home (some (poisonStored ((named 0).rowCol home))) }
    (listed.runningItem 1 0x0902).isSome = true ∧ listed.sm.walk = none ∧ walk listed = some (.disagree 0x0901 0) ∧
      walk poisoned = some (.disagree 0x0902 0) ∧ anyBad (readKept (theItem 0x0902 0).requester (channelBlk.field 7) ⟨home, 32⟩ poisoned).2 = true ∧
      anyBad (readKept (theItem 0x0902 0).requester (channelBlk.field 7) ⟨home, 32⟩ listed).2 = false ∧
      passes (stitchCount 0 ⟨home, 32⟩ ops) = true ∧ walk (named (2 ^ 37 * 5)) = some .atGoal ∧ walk (named (2 ^ 32 * 17)) = some (.refused 0x0106) ∧
      (named 0).upset ≠ some .seamCopy ∧ 3 < (named 0).chans.length ∧ (named 0).devField 7 4 2 = 2 := by decide +kernel

theorem test_witness_SearchAndSeamOperations_stitched :
    let e := entryOf 0x0902 0 [some (0, 0, 32), some (0, 64, 355), some (0, 448, 32), none]
    let s : State := { holding (home + 448) [word (2 ^ 64 * 3 + 2 ^ 96 * 3)] (holding (home + 64) [word (1 + 2 ^ 64 * 3)] (searching 0x0902 0 [word (2 ^ 32)])) with
      sm.latched := 0, shu.items := [anItem e] }
    let walk (s : State) : State × Option (Walk × WalkEnd) := stitchWalk (anItem e) channelBlk ⟨home, 32⟩ ⟨⟨home + 64, 355⟩, ⟨home + 448, 32⟩⟩ s
    let stitched (x : State × Option (Walk × WalkEnd)) : Bool := match x with
      | (_, some (_, .stitched _)) => true
      | _ => false
    (s.runningItem 1 0x0902).isSome = true ∧ stitched (walk s) = true ∧ (walk s).1.upset = none ∧ 3 < (walk s).1.chans.length ∧
      stitched (walk { s with upset := some .seamCopy }) = true ∧ (walk { s with upset := some .seamCopy }).1.upset = some .seamCopy := by decide +kernel
theorem test_witness_SearchAndSeamOperations_kernelWrites :
    let e := BitVec.ofNat 512 (0x0C01 + 2 ^ 96 * 9 + 2 ^ 128 * (2 ^ 16 * 1 + 2 ^ 64 * 32) + 2 ^ 224 * (2 ^ 16 * 2 + 2 ^ 32 * 64 + 2 ^ 64 * 32))
    let s : State := { searching 0x0C01 9 [] with shu.kernels := [(0, 9)], shu.items := [anItem e] }
    (s.runningItem 1 0x0C01).isSome = true ∧ operandsWith e 0 = [0] ∧ operandsWith e 1 = [1] ∧
      (busyJob searchBlks).operandSpan e 1 = some ⟨home + 64, 32⟩ ∧ (busyJob searchBlks).operandSpan e 0 = some ⟨home, 32⟩ ∧
      s.readsAll home (List.replicate 32 0) = true ∧ ((anItem e).core, kernelOf e) ∈ s.shu.kernels ∧ fetchKernel (anItem e) s = (s, true) := by
  decide +kernel

theorem test_witness_SearchAndSeamOperations_hold :
    ((searching 0x0903 0 []).runningItem 1 0x0903).isSome = true ∧ (busyJob searchBlks).itemChannel (theItem 0x0903 0) = some channelBlk ∧
      (theItem 0x0903 0).tag ∉ ((searching 0x0903 0 []).chan 3).released ∧ (busyJob []).itemChannel (theItem 0x0903 0) = none ∧
      ({ searching 0x0903 0 [] with upset := some .seamCopy } : State).upset = some .seamCopy := by decide +kernel

/-- The SEARCH at the goal ends without a candidate, and the DARN of a path at rest writes its header. -/
def searchEnds : Bool :=
  let s := searching 0x0401 0 [word (2 ^ 96 * 1)]
  match s.occCtx with
  | some c =>
    match runProg (searchSetup (theItem 0x0401 0) (busyJob searchBlks) channelBlk aPattern c (anEpoch 3)) s with
    | (t, .ok x) => match runProg (searchEnd x (t.chan 3)) t with | (_, .ok en) => en.status == .ok | (_, .error _) => false
    | (_, .error _) => false
  | none => false

theorem test_witness_SearchAndSeamOperations_ends : searchEnds = true := by decide +kernel

theorem test_witness_SearchAndSeamOperations_fetch :
    let s : State := { searching 0x0C01 9 [] with shu.kernels := [(0, 9)] }
    let t : State := { searching 0x0901 0 (List.replicate 81 0) with shu.kernels := [(0, channelBKernel)] }
    fetchKernel (theItem 0x0C01 9) s = (s, true) ∧ fetchKernel (theItem 0x0901 0) t = (t, true) := by decide +kernel

/-- CHECK_B of a VALID record of the applied epoch walks to a verdict. -/
def checkEnds : Bool :=
  let ws : List Word := word (1 + 2 ^ 64 * 3) :: List.replicate 80 0
  let s : State := { searching 0x0901 0 ws with shu.kernels := [(0, channelBKernel)] }
  match s.occCtx with
  | some c => recField ws 0 1 == 1 && recField ws 64 32 == 3 &&
      ends (runProg (checkWalk (theItem 0x0901 0) (busyJob searchBlks) channelBlk aPattern c (anEpoch 3) ws ⟨home + 128, 32⟩) s)
  | none => false

theorem test_witness_SearchAndSeamOperations_walk : checkEnds = true := by decide +kernel

/-- The layers live while a slice of the self-test runs on the Tracer. -/
def tested (s : State) : State := { s with sm.running := [⟨⟨.tracerGroup, 0, 0⟩, 0⟩] }

theorem test_witness_tracerTested :
    (tested served).tracerTested = true ∧ served.tracerTested = false ∧ (tested (searching 0x0401 0 [])).openGate = some (anEpoch 3) := by decide +kernel

/-! ### The Solver Lanes -/

/-- A least-squares structure image of two variables with a dense pattern and a signature. -/
def fitBody : List Word := [word (2 ^ 16), word (2 ^ 32 + 2 ^ 64 * 3), word (2 ^ 32), word (2 ^ 32 + 2 ^ 64), 1]
def fitHead : Word := word (0x46545331 + 2 ^ 32 + 2 ^ 96 * 2 + 2 ^ 128 * 3 + 2 ^ 192 + 2 ^ 224 * 3)
def fitImage (sig : Nat) : List Word := fitHead :: word (2 + 2 ^ 64 * sig) :: fitBody ++ [0, 0]

/-- The slot of such an image at the second operand of an item. -/
def fitSlot : SolverSlot := (parseStructure (home + 64) (fitImage 0)).1

/-- An image passes every test of R234. -/
def loads (ws : List Word) : Bool :=
  let (x, pads) := parseStructure (home + 64) ws
  strWords (ws.take 2) == ws.length && passes (strHeaderCheck (ws.take 2)) && decide (slotWords (ws.take 2) ≤ 64) && passes (strChecks x pads ws) &&
    loadTimeOk x

/-- A solver operation with its slot loaded. -/
def solving (op param : Nat) (ws : List Word) (x : SolverSlot) : State := { searching op param ws with se.slots := [x] }

theorem test_witness_SolverOperations_load :
    loads (fitImage (ofBytes ((shake64 ((wordsBytes [fitHead, 2]).take 40 ++ wordsBytes fitBody)).take 8))) = true := by decide +kernel

theorem test_witness_SolverOperations_free :
    let s := searching 0x0501 0 (fitImage 0)
    (s.runningItem 1 0x0501).isSome = true ∧ s.slotHolder 1 (home + 64) = none ∧
      ({ s with shu.items := s.shu.items ++ [{ theItem 0x0503 2 with id := 2, result := some (done .ok) }] } : State).slotHolder 1 (home + 64) =
        some 2 := by decide +kernel

/-- A parameter word of a solve. -/
def solveWord (resume : Nat) : Word := word (8 + 2 ^ 16 * resume + 2 ^ 19 * 205 + 2 ^ 32 + 2 ^ 64 + 2 ^ 192 * 0xEC + 2 ^ 200 * 0xF0)

theorem test_witness_SolverOperations_solve :
    let s := solving 0x0503 0 [solveWord 0] { fitSlot with kind := 0 }
    let e := entryOf 0x0503 0 [some (0, 0, 1), some (0, 64, 64), none, some (0, 128, 32)]
    let t : State := { s with shu.items := [anItem e] }
    (t.runningItem 1 0x0503).isSome = true ∧ (busyJob searchBlks).operandSpan e 2 = none ∧ passes (solveParamCheck (solveParams (solveWord 0).toNat) 8) = true ∧
      t.reads home (solveWord 0) = true ∧ (t.slot? (home + 64)).isSome = true ∧ (solveParams (solveWord 0).toNat).warm = 0 ∧
      ({ fitSlot with kind := 0 } : SolverSlot).recordWords ≤ 32 ∧ (solveParams (solveWord 1).toNat).resume = true ∧ t.slotHolder 1 (home + 64) = none ∧
      passes (solveParamCheck (solveParams 0) 65534) = false ∧ s.slot? home = none := by decide +kernel

theorem test_witness_SolverOperations_ease :
    let x : SolverSlot := { fitSlot with kind := 0, n := 128, m := 1024, sig := BitVec.ofNat 64 (channelBlk.field 77) }
    let s := solving 0x0502 0 [] x
    (s.runningItem 1 0x0502).isSome = true ∧ (busyJob searchBlks).itemChannel (theItem 0x0502 0) = some channelBlk ∧ s.pat.active = some aPattern ∧
      s.slot? (home + 64) = some x ∧ x.sig.toNat = channelBlk.field 77 ∧ s.slotHolder 1 (home + 64) = none ∧ s.reads home 0 = true ∧
      Word.get (0 : Word) 32 5 ≤ bits (Entry.param (theItem 0x0502 0).entry) 3 4 := by decide +kernel

theorem test_witness_SolverOperations_fit :
    let e (form : Nat) := entryOf 0x0504 (8 * form) [some (0, 0, 1), some (0, 64, 64), some (0, 128, 2), some (0, 192, 32)]
    let s (form : Nat) : State := { solving 0x0504 0 [solveWord 0] fitSlot with shu.items := [anItem (e form)] }
    ((s 0).runningItem 1 0x0504).isSome = true ∧ bits (Entry.param (e 1)) 3 2 = 1 ∧ bits (Entry.param (e 2)) 3 2 = 2 ∧
      (busyJob searchBlks).operandSpan (e 0) 2 = some ⟨home + 128, 2⟩ ∧ (s 0).readsAll (home + 128) [0, 0] = true ∧ fitSlot.kind = 1 ∧
      (s 0).slot? (home + 64) = some fitSlot ∧ fitSlot.recordWords ≤ 32 ∧ (s 2).readsAll (home + 192) (List.replicate fitSlot.recordWords 0) = true ∧
      (fitRow fitSlot (word (2 + 2 ^ 144)).toNat (word (1 + 2 ^ 32)).toNat).ok = true ∧ (fitRow fitSlot 0 0).ok = false := by decide +kernel

theorem test_witness_SolverOperations_words :
    let x : SolverSlot := { fitSlot with kind := 0 }
    let s := solving 0x0503 0 [solveWord 0] x
    (min 64 x.words ≤ 64 ∧ s.readsAll (home + 64) (List.replicate (min 64 x.words) 0) = true) ∧
      s.readsAll home (List.replicate (min chStateWords 1) (solveWord 0)) = true ∧ passes (keptCount 0 32) = true ∧
      passes (keptCount (2 ^ 32 * 17) 32) = false ∧ (busyJob searchBlks).bufferSpan (channelBlk.field 18) = none := by decide +kernel

/-! ### Tensor Engine, Top-k Selectors, Move Engines and ports -/

theorem test_witness_DataOperations_tensor :
    let v : Word := word (1 + 2 ^ 32 + 2 ^ 64)
    let s := onWords 0x0602 0 [] [v]
    let j : Job := { busyJob [] with networks := [⟨1, 0, home, 1, 0, 0, 0, 0⟩] }
    (s.runningItem 1 0x0602).isSome = true ∧ s.reads home v = true ∧
      (let q := matmulParam v.toNat
       let l := q.layer (q.split (s.matmulTiling (busyJob [])))
       let sp (i : Nat) : Span := ⟨home + 64 * i, 32⟩
       passes (matmulCheck (s.matmulTiling (busyJob [])) false q (sp 1) (sp 2) (sp 3)) = true ∧ s.readsAll (home + 64) (List.replicate l.inWords 0) = true ∧
         s.readsAll (home + 128) (List.replicate l.weightWords 0) = true ∧
         passes (matmulCheck (s.matmulTiling (busyJob [])) false (matmulParam 0) (sp 1) (sp 2) (sp 3)) = false) ∧
      (busyJob []).network 1 = none ∧ (j.network 1).isSome = true ∧
      ({ withJob j (onWords 0x0601 1 [] []) with shu.items := [theItem 0x0601 1] } : State).runningItem 1 0x0601 = some (theItem 0x0601 1, j) := by
  decide +kernel

theorem test_witness_DataOperations_topk :
    let v : Word := word (2 ^ 16 + 2 ^ 32 * 8)
    let e := entryOf 0x0701 0 [some (0, 0, 1), some (0, 64, 32), some (0, 128, 32), none]
    let s : State := { onWords 0x0701 0 [] [v] with shu.items := [anItem e] }
    (s.runningItem 1 0x0701).isSome = true ∧ s.reads home v = true ∧ (topkParam v.toNat).form = 0 ∧ (topkParam v.toNat).count = 8 ∧
      passes (topkCheck (topkParam v.toNat) false 32 32 none (overlapOk e (busyJob []))) = true ∧ s.readsAll (home + 64) [0] = true ∧
      passes (topkCheck (topkParam 0) false 32 32 none (overlapOk e (busyJob []))) = false := by decide +kernel

theorem test_witness_DataOperations_move :
    let s := onWords 0x0A01 3 [] [1, 2, 3]
    let p : State := { s with mem := s.mem.put (home + 3) (some (poisonStored (s.rowCol (home + 3)))) }
    (s.runningItem 1 0x0A01).isSome = true ∧ home + 64 + 32 ≥ home + 32 ∧ s.readsAll home ([1, 2, 3] ++ List.replicate 29 0) = true ∧
      p.readsAll home [1, 2, 3] = true ∧ p.memCtl.merge = [] ∧
      (p.mem.get (home + 3)).map (decodeStored (p.rowCol (home + 3))) = some .poison ∧ s.reads home 1 = true := by decide +kernel

theorem test_witness_DataOperations_gather :
    let e := entryOf 0x0A03 3 [some (0, 0, 1), some (0, 64, 32), some (0, 128, 8), none]
    let s : State := { onWords 0x0A03 3 [] [word (2 ^ 32)] with shu.items := [anItem e] }
    (s.runningItem 1 0x0A03).isSome = true ∧ (busyJob []).operandSpan e 2 = some ⟨home + 128, 8⟩ ∧ s.readsAll home [word (2 ^ 32)] = true ∧
      (∀ i, i < 8 → lane32 (word (2 ^ 32)) (i % 8) < 32) ∧ (∀ i, i < 8 → s.reads (home + 64 + lane32 (word (2 ^ 32)) (i % 8)) 0 = true) ∧
      32 ≤ lane32 (word 32) 0 := by decide +kernel

theorem test_witness_DataOperations_check :
    let s := onWords 0x0602 0 [] []
    let l := (matmulParam (word (1 + 2 ^ 32 + 2 ^ 64)).toNat).layer ((matmulParam (word (1 + 2 ^ 32 + 2 ^ 64)).toNat).split 16)
    let d : LayerData := { layer := l, x := [], w := [], post := [], upset := none }
    s.memCtl.flip = none ∧ d.failedCheck false = none ∧
      ({ d with upset := some (.accumulation d.index 0 5) } : LayerData).failedCheck false = some ⟨0, 5, true⟩ := by decide +kernel

theorem test_witness_DataOperations_merge :
    let v : Word := word (1 + 2 ^ 16 + 2 ^ 32 + 2 ^ 64)
    let e := entryOf 0x0702 0 [some (0, 0, 1), some (0, 64, 32), some (0, 128, 32), none]
    let s : State := { holding (home + 64) [1] (onWords 0x0702 0 [] [v]) with shu.items := [anItem e] }
    let q := topkParam v.toNat
    (s.runningItem 1 0x0702).isSome = true ∧ s.reads home v = true ∧ q.form = 1 ∧ q.count = 1 ∧ q.stride = 3 ∧
      passes (topkCheck q true 32 32 none (overlapOk e (busyJob []))) = true ∧ s.readsAll (home + 64) [1, 0, 0] = true ∧
      passes (inputEntries q true [[1, 0, 0]]) = true := by decide +kernel

theorem test_witness_PortOperations :
    let down (param : Nat) := searching 0x0B03 param (List.replicate 32 5)
    (∀ m, m < 3 → ((down m).runningItem 1 0x0B03).isSome = true ∧ bits (Entry.param (theItem 0x0B03 m).entry) 0 4 = m) ∧
      (down 0).occCtx.isSome = true ∧ (down 0).occ.committed = some (anEpoch 4) ∧ (anEpoch 4).fill = 0 ∧
      (down 1).readsAll home (List.replicate 32 5) = true ∧ (down 2).pl.gathers = [] ∧ collectiveLinks (theItem 0x0B03 2) = [] ∧
      collectiveLinks (theItem 0x0B03 (2 + 2 ^ 4)) = [0] ∧ ((down 2).peer 0).held = [] ∧ ((onWords 0x0B01 0 [] []).runningItem 1 0x0B01).isSome = true ∧
      (let g := down (2 + 2 ^ 4)
       (g.runningItem 1 0x0B03).isSome = true ∧ (busyJob searchBlks).itemChannel (theItem 0x0B03 (2 + 2 ^ 4)) = some channelBlk ∧
         min ((busyJob searchBlks).listLen (theItem 0x0B03 (2 + 2 ^ 4))) 32 = 32 ∧ g.readsAll home (List.replicate 32 5) = true ∧ (g.peer 0).held = []) := by
  decide +kernel

/-- The one entry of epoch 4 in the log, for a DELTA_BROADCAST of one link. -/
def oneEntry : Epoch := { anEpoch 4 with fill := 1 }

/-- What the broadcast of that entry on link 2 reads before it sends. -/
def broadcastReads (s : State) : State × Check (List Nat × List (Nat × (List Byte ⊕ List Nat))) :=
  let req := (theItem 0x0B03 (2 ^ 6)).requester
  let c : OccCtx := { occCtx with block := { occBlk with service := 22 } }
  runProg (do
    let es ← logEntries req c oneEntry (List.range 1)
    let xs ← [2].mapM fun n => do
      let x ← broadcastOf req c oneEntry (home + 32768 * n) es
      pure (n, x)
    pure (es, xs)) s

theorem test_witness_PortOperations_broadcast :
    let s : State := { searching 0x0B03 (2 ^ 6) [] with occ.committed := some oneEntry }
    let p : State := { s with mem := Memory.put s.mem (home + 2555904) (some (poisonStored (s.rowCol home))) }
    (s.runningItem 1 0x0B03).isSome = true ∧ collectiveLinks (theItem 0x0B03 (2 ^ 6)) = [2] ∧
      s.occCtx = some { occCtx with block := { occBlk with service := 22 } } ∧ oneEntry.rebuild = false ∧
      (match broadcastReads s with | (_, .ok (es, xs)) => decide (es.length = 1 ∧ xs.map (·.1) = [2]) | (_, .error _) => false) = true ∧
      (match broadcastReads p with | (_, .ok _) => false | (_, .error f) => f.status == .poisoned) = true := by decide +kernel

/-- R384: the check bits of an all-zero word are zero, so a word that nothing has written reads as clean zeros. -/
theorem test_zero_word_is_clean : decodeStored true ⟨0, 0⟩ = .clean 0 ∧ decodeStored false ⟨0, 0⟩ = .clean 0 := by decide +kernel

/-- Words that nothing has written read as zeros. -/
theorem test_zeros_read (s : State) (hm : s.memCtl.merge = []) (n : Nat) (k : Nat) (h : ∀ i, k ≤ i → i < k + n → s.mem.get i = some ⟨0, 0⟩) :
    s.readsAll k (List.replicate n 0) = true := by
  induction n generalizing k with
  | zero => rfl
  | succ n ih =>
    have z : decodeStored (s.rowCol k) ⟨0, 0⟩ = .clean 0 := by
      cases s.rowCol k
      · exact test_zero_word_is_clean.2
      · exact test_zero_word_is_clean.1
    simp only [List.replicate_succ, State.readsAll, State.reads, hm, h k (Nat.le_refl k) (by omega), z, List.all_nil, Bool.true_and, beq_self_eq_true]
    exact ih (k + 1) fun i h1 h2 => h i (by omega) (by omega)

/-- A DELTA_BROADCAST on link 2 whose masks meet at the first voxel. -/
def meeting : State := holding (home + 65536) [3] (holding (occCtx.authAt 2 0) [1] (searching 0x0B03 (2 ^ 6) []))

theorem test_witness_PortOperations_meet :
    (meeting.runningItem 1 0x0B03).isSome = true ∧ collectiveLinks (theItem 0x0B03 (2 ^ 6)) = [2] ∧
      meeting.readsAll (home + 32768 * 2) (3 :: List.replicate 32767 0) = true ∧ meeting.readsAll (occCtx.authAt 2 0) (1 :: List.replicate 32767 0) = true ∧
      nth (3 :: List.replicate 32767 (0 : Word)) 0 0 &&& nth (1 :: List.replicate 32767 (0 : Word)) 0 0 ≠ 0 := by
  have hm : meeting.memCtl.merge = [] := rfl
  have mem : meeting.mem = [(1703936, some (encodeWord false 3)), (4030464, some (encodeWord false 1))] := by decide +kernel
  have plain (i : Nat) (h : i < 4194304) (h1 : i ≠ 1703936) (h2 : i ≠ 4030464) : meeting.mem.get i = some ⟨0, 0⟩ := by
    rw [mem]
    simp only [Memory.get, memDefault]
    rw [if_neg (Ne.symm h1), if_neg (Ne.symm h2), if_neg]
    simp only [Bool.and_eq_true, decide_eq_true_eq, not_and]
    intro h3
    have h4 : 4194304 ≤ lpddrBase := by decide
    exact absurd (Nat.lt_of_lt_of_le h (Nat.le_trans h4 h3)) (Nat.lt_irrefl i)
  refine ⟨by decide +kernel, by decide +kernel, ?_, ?_, by decide +kernel⟩
  · change meeting.readsAll 1703936 _ = true
    rw [State.readsAll, test_zeros_read _ hm, Bool.and_true]
    · decide +kernel
    · exact fun i h1 h2 => plain i (by omega) (by omega) (by omega)
  · change meeting.readsAll 4030464 _ = true
    rw [State.readsAll, test_zeros_read _ hm, Bool.and_true]
    · decide +kernel
    · exact fun i h1 h2 => plain i (by omega) (by omega) (by omega)

/-! ## Work that events and time bring about -/

/-- The layers live beside a RUNNING job, with a Pattern of one edge. -/
def traced : State := { live (onWords 0x0302 0 [occBlk] []) with pat.active := some { aPattern with edges := 1 } }

theorem test_witness_TracerAndSources :
    let t : State := { traced with trc.rotations := [3], trc.recounts := [⟨0, 2, 0⟩] }
    served.occCtx = none ∧ t.awake = true ∧ t.occCtx = some occCtx ∧ t.pat.active.isSome = true ∧ t.trc.fullCount = none ∧ t.trc.fault = false ∧
      t.trc.rotations = [3] ∧ t.reads (edgeKey 0) 0 = true ∧ recPend 0 2 = false ∧ recSat 0 2 = false ∧ recCount 0 2 = 0 ∧ t.trc.overflow = none ∧
      ({ traced with trc.overflow := some 0 } : State).trc.recounts = [] ∧ ({ traced with trc.fullCount := some 0 } : State).trc.fault = false ∧
      occCtx.slice t.now = t.occ.tc + 0 ∧ occCtx.hasPort 0 = true ∧ occCtx.hasPeer 2 = true := by decide +kernel

/-- The 64-bit record of an edge with one slot, its recount waiting: the forward list and the count of the slot exist. -/
def recountRuns : Bool :=
  let r := setSlot 0 2 1 false true
  let t := { holding (edgeKey 0) [word r] { traced with trc.recounts := [⟨0, 2, 0⟩] } with trc.recounts := [] }
  recPend r 2 && (match (forwardList { aPattern with edges := 1 } 0 t).2 with | some _ => true | none => false)

theorem test_witness_TracerAndSources_recount : recountRuns = true := by decide +kernel

theorem test_witness_TracerAndSources_dropped :
    let t : State := { traced with trc.recounts := [⟨1, 2, 0⟩] }
    ({ aPattern with edges := 1 } : Pattern).edges ≤ 1 ∧ t.trc.recounts = [⟨1, 2, 0⟩] ∧ t.tracerTested = false ∧
      ({ traced with sm.running := [⟨⟨.tracerGroup, 0, 0⟩, 0⟩] } : State).tracerTested = true := by decide +kernel

/-- Camera port 0 consumed by the RUNNING job of service 20, its ring in buffer 0. -/
def filmed (overrun : Nat) : State := { withJob (busyJob []) served with devBlocks := [cameraBlk overrun] }

/-- A frame in progress in buffer 1 of port 0, with a number of lines. -/
def filming (lines : Nat) : State :=
  setPort 0 (fun p => { p with now := some { buffer := some 1, start := 0, number := 5, lines := lines } }) (filmed 0)

theorem test_witness_FrameIntake_start :
    let full : State := setPort 0 (fun p => { p with bufs := [{ state := .full, order := 0 }, { state := .full, order := 1 }, { state := .held },
      { state := .held }] }) (filmed 1)
    served.camera 0 = none ∧ (filmed 0).camera 0 = some (cameraBlk 0) ∧ (filmed 0).consumer (cameraBlk 0) = some (1, busyJob []) ∧
      ((filmed 0).fiPort 0).now = none ∧ (((filmed 0).fiPort 0).buf 0).state = .free ∧ (busyJob []).goldenPort 0 = false ∧ (cameraBlk 0).field 6 = 4 ∧
      (cameraBlk 0).field 7 = 0 ∧ (cameraBlk 1).field 7 = 1 ∧ (∀ k, k < 4 → ((full.fiPort 0).buf k).state ≠ .free) ∧
      ((full.fiPort 0).buf 0).state = .full ∧ (∀ k, k < 4 → k ≠ 0 → ((full.fiPort 0).buf k).state = .full → 0 < ((full.fiPort 0).buf k).order) ∧
      full.fi.ports.length = 4 ∧ (full.fiPort 0).bufs.length = 4 ∧ served.consumer (cameraBlk 0) = none := by decide +kernel

theorem test_witness_FrameIntake_lines :
    pixelType (cameraBlk 0) = 0x2A ∧ lineBytes (cameraBlk 0) = 8 ∧ lineBytes (cameraBlk 0) ≤ 32 * lineWords (cameraBlk 0) ∧
      ((filming 1).fiPort 0).now = some { buffer := some 1, start := 0, number := 5, lines := 1 } ∧ (filming 1).consumer (cameraBlk 0) = some (1, busyJob []) ∧
      (busyJob []).bufferSpan ((cameraBlk 0).field 13) = some ⟨home, 4096⟩ ∧ 1 < (cameraBlk 0).field 5 ∧ (cameraBlk 0).field 5 = 2 ∧
      (filming 2).now < 0 + 1000000 * (cameraBlk 0).field 10 ∧
      0 + 1000000 * (cameraBlk 0).field 10 ≤ ({ filming 2 with gcnt := 40000000 } : State).now := by decide +kernel

theorem test_witness_FrameIntake_monitor :
    let e : EndedFrame := ⟨1, List.replicate 64 {}⟩
    let s (number : BitVec 16) : State := setPort 0 (fun p => { p with ended := [e], bufs := upd p.bufs 1 fun b => { b with number := number } }) (filmed 0)
    ((s 5).fiPort 0).ended = [e] ∧ (cameraBlk 0).field 8 = 1 ∧ (((s 0).fiPort 0).buf 1).number = 0 ∧ (((s 5).fiPort 0).buf 1).number ≠ 0 ∧
      ((s 5).fiPort 0).refNumber = none ∧ frozenBands e.bands ((s 5).fiPort 0).refBands < (cameraBlk 0).field 9 ∧ ((s 5).fiPort 0).take = none ∧
      frozenBands (List.replicate 48 { constant := false }) (List.replicate 48 { constant := false }) = 48 := by decide +kernel

theorem test_witness_FrameIntake_take :
    let s : State := { setPort 0 (fun p => { p with take := some (1, 0) }) (onWords 0x0801 0 [] []) with devBlocks := [cameraBlk 0] }
    (s.fiPort 0).take = some (1, 0) ∧ 0 ≤ s.now ∧ (∀ k : Fin 4, k ≠ 0 → (s.fiPort k).take = none) ∧ (s.runningItem 1 0x0801).isSome = true := by
  decide +kernel

theorem test_witness_FrameIntake_expired :
    let f : FrameNow := { buffer := none, start := 0, number := 5, lines := 2, discarded := true, expired := true }
    f.discarded = true ∧ f.expired = true ∧ (cameraBlk 0).field 5 = 2 := by decide +kernel

/-- A FIELD_PORT block of port 0: node 0 drives channel 3, node 1 takes corrections, node 2 is a sensor. -/
def fieldBlk : Block :=
  let node (role channel mac : Nat) : Nat := 16 * role + 256 * channel + 2 ^ 16 * 3 + 2 ^ 32 * mac
  blk 2 1 0xFFFF fun f => match f with
    | 0 => 1 | 1 => 8 | 4 => 0x020000000001 | 5 => 0x88B5 | 6 => 0x030000000001 | 7 => 10 | 11 => 256
    | 12 => node 1 3 0x020000000010 | 13 => node 2 0 0x020000000011 | 14 => node 3 0 0x020000000012 | _ => 0x30000

/-- Port 0 in use. -/
def ported : State := { served with devBlocks := [fieldBlk] }

/-- A release of channel 3 at g_base 9. -/
def aRelease : Release := { channel := 3, words := [word (2 ^ 192 * 9)], payload := List.replicate 26 0, history := [], partition := 0 }

theorem test_witness_FieldPorts_send :
    let queued (f : FpFrame) (timed : Bool) : State := setFp 0 (fun p => { p with queue := [f], timeDue := timed }) ported
    served.fieldBlock 0 = none ∧ ported.fieldBlock 0 = some fieldBlk ∧ ported.fp.length = 4 ∧ (ported.port 0).nodes.length = 8 ∧
      (ported.port 0).timeDue = false ∧ (ported.port 0).queue = [] ∧ nodeWith fieldBlk (fun d => d.role == 1 && d.channel == 3) = some 0 ∧
      nodeWith fieldBlk (fun d => d.role == 2) = some 1 ∧ ((queued (.setpoint aRelease) false).port 0).queue = [.setpoint aRelease] ∧
      (queued (.setpoint aRelease) false).now ≤ aRelease.gBase ∧ aRelease.gBase < ({ ported with gcnt := 10 } : State).now ∧
      ported.fragmentFits 0 800000 = true ∧ fieldBlk.field 7 ≠ 0 ∧ fieldBlk.field 0 ≠ 0 ∧
      (setFp 0 (fun p => { p with plcaOk := true }) ported |>.port 0).plcaOk = true := by decide +kernel

/-- A feedback frame from the sensor at node 2: one joint, SEQ and STATUS given. -/
def feedback (seq status joints : Nat) : List Byte :=
  let body := toBytes 1 1 ++ toBytes 0x81 1 ++ toBytes (4 + 2 * joints) 2 ++ toBytes seq 2 ++ toBytes 0 18 ++
    (toBytes joints 1 ++ toBytes status 1 ++ toBytes 0 2 ++ toBytes 0 (2 * joints))
  toBytes 0x020000000001 6 ++ toBytes 0x020000000012 6 ++ (toBytes 0x88B5 2).reverse ++ body ++ toBytes (crc32c body) 4 ++ List.replicate 12 0

theorem test_witness_FieldPorts_receive :
    ofBytes (((feedback 1 0 1).drop 12).take 2).reverse = fieldBlk.field 5 ∧
      nodeWith fieldBlk (fun d => (d.role == 1 || d.role == 3) && d.mac == frameField (feedback 1 0 1) 6 6) = some 2 ∧ (nodeDef fieldBlk 2).role = 3 ∧
      rxHeader (feedback 1 0 1) = true ∧ rxPayloadCheck (feedback 1 0 1) = true ∧ rxKind (feedback 1 0 1) 3 none = true ∧
      rxValues (feedback 1 0 1) 3 none = true ∧ rxValues (feedback 1 4 1) 3 none = false ∧ rxKind (feedback 1 0 9) 3 none = false ∧
      (nth (ported.port 0).nodes 2 {}).lastSeq = none ∧ (nth (ported.port 0).nodes 2 {}).stale = false := by decide +kernel

/-- The port with a second drive, of channel 1, at node 3, and a burst of two. -/
def burstBlk (burst : Nat) : Block :=
  let node (role channel mac : Nat) : Nat := 16 * role + 256 * channel + 2 ^ 16 * 3 + 2 ^ 32 * mac
  blk 2 1 0xFFFF fun f => match f with
    | 0 => 1 | 1 => 8 | 3 => burst | 4 => 0x020000000001 | 5 => 0x88B5 | 6 => 0x030000000001 | 7 => 10 | 11 => 256
    | 12 => node 1 3 0x020000000010 | 13 => node 2 0 0x020000000011 | 14 => node 3 0 0x020000000012 | 15 => node 1 1 0x020000000013 | _ => 0x30000

/-- A SETPOINT of channel 1, behind one of channel 3 at a g_base and an AUX frame, in a burst. -/
def firstRelease : Release := { aRelease with channel := 1 }
def laterRelease (g : Nat) : Release := { aRelease with words := [word (2 ^ 192 * g)] }
def queued (burst g : Nat) : State :=
  setFp 0 (fun p => { p with queue := [.aux 2 [1], .setpoint (laterRelease g), .setpoint firstRelease], plcaOk := true })
    { served with devBlocks := [burstBlk burst] }

theorem test_witness_FieldPorts_order :
    (queued 1 0).fieldBlock 0 = some (burstBlk 1) ∧ firstRelease.channel < (laterRelease 0).channel ∧ (queued 1 0).now ≤ firstRelease.gBase ∧
      (queued 1 0).now ≤ (laterRelease 0).gBase ∧ nodeWith (burstBlk 1) (fun d => d.role == 1 && d.channel == 1) = some 3 ∧
      nodeWith (burstBlk 1) (fun d => d.role == 1 && d.channel == 3) = some 0 ∧ (burstBlk 1).field 3 = 1 ∧ (burstBlk 0).field 3 = 0 ∧
      ((queued 1 0).port 0).plcaOk = true ∧ (laterRelease 0).gBase = 0 ∧ (laterRelease (2 ^ 64 - 1)).gBase = 2 ^ 64 - 1 := by decide +kernel

/-- Whatever the free back-off, a g_base of 0 is late behind another frame, and the last count of 64 bits is not. -/
theorem test_witness_FieldPorts_burst (d : Nat) (h : d ≤ 2 ^ 32) :
    (laterRelease 0).gBase < (queued 1 0).now + (queued 1 0).backoff + d + 9600 ∧
      (queued 1 0).now + (queued 1 0).backoff + d + 9600 ≤ (laterRelease (2 ^ 64 - 1)).gBase := by
  obtain ⟨-, -, -, -, -, -, -, -, -, h0, h1⟩ := test_witness_FieldPorts_order
  have hn : (queued 1 0).now = 0 := by decide +kernel
  have hb : (queued 1 0).backoff ≤ 2 ^ 60 := by
    unfold State.backoff
    have := (Config.freeValue (queued 1 0).freeCount).isLt
    split <;> omega
  rw [h0, h1, hn]; omega

theorem test_witness_FieldPorts_time :
    let s : State := setFp 0 (fun p => { p with timeDue := false }) { ported with gcnt := 10000000 }
    fieldBlk.defaulted 6 = false ∧ fieldBlk.field 7 = 10 ∧ (s.port 0).lastTime + 1000000 * fieldBlk.field 7 ≤ s.now := by decide +kernel

/-- A far end on link 6 − 2 of the board at position 3. -/
def farEnd : FarEnd := { position := 3, link := 4 }

theorem test_witness_PeerLinks_training :
    let up : State := setPeer 2 (fun p => { p with up := true }) served
    served.pl.links.length = 7 ∧ (served.peer 2).up = false ∧ farEnd.position.val = (served.boardPos + 2 + 1) % 8 ∧ farEnd.link.val + 2 = 6 ∧
      (up.peer 2).up = true ∧ (up.peer 2).retrainFails < 2 ∧ ({ farEnd with link := 0 } : FarEnd).link.val + 2 ≠ 6 ∧
      ((setPeer 2 (fun p => { p with nakCount := 4, retrainFails := 2 }) up).peer 2).nakCount = 4 ∧
      (let w : State := { setPeer 2 (fun p => { p with waiting := [[⟨0, true, true, [], []⟩], [], [], []], credits := [0, 64, 256, 64] }) up with gcnt := 100000 }
       nth (w.peer 2).waiting 0 [] ≠ [] ∧ nth (w.peer 2).credits 0 0 = 0 ∧ nth (w.peer 2).waitSince 0 0 + 100000 ≤ w.now) := by decide +kernel

/-- A one-flit message of type 3. -/
def messageFlit : Flit := { null := false, fseq := 0, crcOk := true, start := true, last := true, vc := 2, ack := 0, nak := false, credits := 0,
                            used := 16, zeros := true, payload := 3 :: List.replicate 15 0 }

theorem test_witness_PeerLinks_flits :
    let up : State := setPeer 2 (fun p => { p with up := true }) served
    messageFlit.fseq = (up.peer 2).rxSeq ∧ (up.peer 2).partialMsg.length = 4 ∧ nth (up.peer 2).partialMsg messageFlit.vc none = none ∧
      malformed up.candWords messageFlit.payload = false ∧ malformed up.candWords [] = true ∧ ({ messageFlit with fseq := 1 } : Flit).fseq ≠ (up.peer 2).rxSeq ∧
      nth (setPeer 2 (fun p => { p with partialMsg := [none, none, some [1], none] }) up |>.peer 2).partialMsg 2 none ≠ none ∧
      (up.peer 2).refusing.length = 4 ∧ (up.peer 2).waitCount = 0 ∧ (up.peer 2).freed = [0, 0, 0, 0] ∧ (up.peer 2).nakOut = false ∧
      nth (setPeer 2 (fun p => { p with refusing := [false, false, true, false] }) up |>.peer 2).refusing 2 false = true := by decide +kernel

/-- USED below 1 or above 236, and a set bit that R460 gives as 0, are what the clauses of a flit that is not allowed ask for. -/
theorem test_witness_PeerLinks_form :
    let ok (f : Flit) : Bool := f.zeros && decide (1 ≤ f.used.toNat ∧ f.used.toNat ≤ 236)
    ok messageFlit = true ∧ ok { messageFlit with used := 236 } = true ∧ ok { messageFlit with used := 0 } = false ∧
      ok { messageFlit with used := 237 } = false ∧ ok { messageFlit with zeros := false } = false := by decide

/-- A one-flit message on VC 2: VC 2, START and END, FSEQ 5 and USED 16 in bytes 0 to 7; ACK 2 in byte 244, credit 3 of VC 1 in byte 247 (R460). -/
theorem test_flit_bytes :
    let b := ({ vc := 2, start := true, last := true, payload := messageFlit.payload, returned := [0, 3, 0, 0] } : TxFlit).bytes 5 2 false
    b.length = 256 ∧ b.take 9 = [0x0E, 0, 5, 0, 0, 1, 0, 0, 3] ∧ (b.drop 244).take 4 = [2, 0, 0, 3] := by decide +kernel

/-- A DELTA whose COUNT disagrees with its LENGTH is malformed (R83, R464). -/
theorem test_delta_count :
    malformed served.candWords (messageBytes 2 0 0 (1 :: List.replicate 19 0)) = false ∧
      malformed served.candWords (messageBytes 2 0 0 (2 :: List.replicate 19 0)) = true := by
  decide +kernel

/-- The layers live with Peer Link 2 enabled and up. -/
def linked : State :=
  { traced with devBlocks := [blk 3 5 0xFFFF fun f => if f = 0 then 4 else 40], pl.links := upd served.pl.links 2 fun l => { l with up := true },
                occ.exportAt := some home }

theorem test_witness_PeerLinks_messages :
    linked.occCtx = some occCtx ∧ linked.peerEnabled 2 = true ∧ occCtx.hasPeer 2 = true ∧ linked.occ.exportAt = some home ∧ linked.gatherOn 2 = none ∧
      linked.gatherPast 0 [0] = false ∧ linked.pl.links.length = 7 ∧ linked.arming = none ∧ served.peerEnabled 2 = false ∧
      ({ linked with pl.ranGathers := [(0, 0)] } : State).gatherPast 0 [0] = true := by decide +kernel

/-- A DELTA: its slice is current, the records' distances 15, 16, 239 and 240, and a voxel that leaves the map. -/
theorem test_witness_PeerLinks_delta :
    let s : State := holding (occCtx.authAt 2 1) [1] linked
    let dist (t : Nat) : Nat := (bits (BitVec.ofNat 32 (deltaRecord 256 t true)).toNat 24 8 + 256 - s.occ.tc % 256) % 256
    let shifted : State := withJob (busyJob [shiftedBlk 1]) linked
    s.occCtx = some occCtx ∧ occCtx.slice s.now = s.occ.tc ∧ s.occ.injecting = none ∧ s.occ.peerForced.getLsbD 2 = false ∧
      ({ s with occ.peerForced := 4, occ.peerTimeout := 4 } : State).occ.peerForced.getLsbD 2 = true ∧
      (dist 15, dist 16, dist 239, dist 240) = (15, 16, 239, 240) ∧ occCtx.mapVoxel 2 256 = some 256 ∧
      shifted.occCtx.map (·.mapVoxel 2 255) = some none ∧ s.reads (occCtx.authAt 2 1) 1 = true ∧ (1 : Word).getLsbD (257 % 256) = false ∧
      (1 : Word).getLsbD (256 % 256) = true ∧ s.reads (occCtx.injAt 15 1) 0 = true ∧ s.mem.wf = true ∧ s.memCtl.flip = none ∧ s.predWritten 15 = false ∧
      s.reads (occCtx.logAt s.occ.openLog (s.occ.openFill / 8)) 0 = true ∧ ({ s with occ.openFill := 1048576 } : State).occ.openFill = 1048576 := by
  decide +kernel

theorem test_witness_PeerLinks_fullState :
    let s : State := setPeer 2 (fun p => { p with credits := [8, 64, 256, 0] }) { linked with occ.exportWords := 98304 }
    s.occCtx = some occCtx ∧ s.occ.exportAt = some home ∧ occCtx.slice s.now = s.occ.tc ∧ 32768 * (2 + 1) ≤ s.occ.exportWords ∧
      linked.occ.exportWords < 32768 * (2 + 1) ∧ (s.peer 2).up = true ∧ (s.peer 2).waiting.length = 4 ∧ nth (s.peer 2).credits 3 0 = 0 ∧
      s.occ.injecting = none ∧ s.mem.wf = true ∧ s.memCtl.flip = none ∧ s.reads (occCtx.injAt 15 32767) 0 = true ∧ s.reads (occCtx.authAt 2 32767) 0 = true ∧
      ((s.occ.tc + 15) % 2 ^ 32 + 2 ^ 32 - 0) % 2 ^ 32 < 16 ∧ ¬ ((s.occ.tc + 0) % 2 ^ 32 + 2 ^ 32 - 1) % 2 ^ 32 < 16 := by decide +kernel

/-- A list too long for the form of the job, a third of 161 words on a link that holds two, and lists of an older and a newer TAG. -/
theorem test_witness_PeerLinks_lists :
    let list : List Word := List.replicate 161 0
    let flits (n : Nat) : Nat := ceilDiv (16 + 32 * n) 236
    linked.candWords 0 = 161 ∧ list.length = 161 ∧ flits 161 + flits 161 ≤ 64 ∧ ¬ flits 161 + flits 161 + flits 161 ≤ 64 ∧
      tagOlder 0 1 = true ∧ tagOlder 2 1 = false := by decide +kernel

/-- A gather of item 1 on link 2. -/
def aGather (missing : List Nat) : Gather := { item := 1, tag := 0, channel := 3, links := [2, 3], missing := missing, discarded := 0, limit := 40000, digest := 0 }

theorem test_witness_PeerLinks_gather :
    let s : State := { searching 0x0B03 2 [] with pl.gathers := [aGather [2, 3]], devBlocks := [blk 3 5 0xFFFF fun f => if f = 0 then 4 else 40] }
    (s.runningItem 1 0x0B03).isSome = true ∧ (busyJob searchBlks).itemChannel (theItem 0x0B03 2) = some channelBlk ∧ s.peerEnabled 2 = true ∧
      2 ∈ (aGather [2, 3]).links ∧ 2 ∈ (aGather [2]).missing ∧ gatherTakes (aGather [2]) (channelBlk.field 7) 0 [word (2 ^ 40 * 3)] = true ∧
      (aGather [2, 3]).missing.filter (· != 2) ≠ [] ∧ (aGather [2]).missing.filter (· != 2) = [] ∧ s.now < (aGather [2]).limit ∧
      (let late : State := { s with gcnt := 40000 }
       let at_ := home + 64
       let bad : State := { late with mem := Memory.put late.mem at_ (some (poisonStored (late.rowCol at_))) }
       (busyJob searchBlks).operandSpan (theItem 0x0B03 2).entry 1 = some ⟨at_, 32⟩ ∧ late.reads at_ 0 = true ∧ (aGather [2]).limit ≤ late.now ∧
         (readWord (theItem 0x0B03 2).requester at_ bad).2.bad = true) := by decide +kernel

theorem test_witness_PeerLinks_config :
    let j : Job := { aJob .defined with blocks := [occBlk] }
    let s : State := { withJob j linked with arming := some { mbx := 0, slot := 1, launch := 0, since := 0, syncs := [] } }
    s.jobIn 1 = some j ∧ 2 ∈ j.peerLinks ∧ (s.peer 2).config = none ∧ s.now < 0 + 10000000 ∧ s.pl.links.length = 7 := by decide +kernel

theorem test_witness_PeerLinks_retry :
    let s : State := { served with gcnt := 10000000 }
    (s.peer 2).up = false ∧ (s.peer 2).downAt < s.now ∧ (s.now - (s.peer 2).downAt) % 10000000 = 0 := by decide +kernel

/-- A job whose one peer's CONFIG completes its arm. -/
def armEnds : Bool :=
  let j : Job := { aJob .defined with blocks := [occBlk] }
  let a : Arming := { mbx := 0, slot := 1, launch := 0, since := 0, syncs := [] }
  let s : State := { withJob j linked with arming := some a, sm.latched := 0 }
  let kept := setPeer 2 (fun x => { x with config := some ⟨0, 0, 5000, 1⟩ }) s
  (j.peerLinks.all (· == 2)) && configsIn kept j && !configsIn s j && ends (runProg (finishArmProg 1 j [] 0) { kept with arming := none })

theorem test_witness_PeerLinks_arm : armEnds = true := by decide +kernel

theorem test_witness_MemoryUpkeep :
    let w : WriteBack := ⟨lpddrBase, 0, false⟩
    let c : Correction := ⟨home, 3, true⟩
    let window : CorrWindow := { memory := 0, inst := 0, count := 1, addr := 0, syndrome := 0, requester := 0, gcnt := 0, rowCol := false, hard := false,
                                 job := 0xFFFF, service := 0 }
    let s : State := { served with memCtl.writeBacks := [w], memCtl.candidates := [c], memCtl.windows := [window], gcnt := 2000000 }
    served.mem.wf = true ∧ served.memCtl.flip = none ∧ s.memCtl.writeBacks.filter (·.class1) = [] ∧ window.gcnt.toNat / 1000000 < s.now / 1000000 ∧
      s.devField 6 159 1 = 1 ∧ s.fw.stage = .running ∧ s.memCtl.softRepairs.length < 32 ∧
      s.sparesUsed (autoRepairOf s c) < spares (autoRepairOf s c).memory (autoRepairOf s c).column ∧ (keyMem w.key).1 = memLpddr ∧
      w.since + 10000 ≤ s.now := by decide +kernel

theorem test_witness_SafetyAndCores :
    let x : TestSlice := ⟨.pse, 0, 0⟩
    let s : State := { served with sm.running := [⟨x, 0⟩] }
    let covered : State := { normal with gcnt := 100000, sm.overdue := false }
    served.sm.safeReq = false ∧ served.now % 1000 = 0 ∧ served.smState ≠ 0 ∧ normal.smState = 0 ∧ served.sm.readbackMiss = 0 ∧ served.sm.latched.getLsbD 6 = false ∧
      covered.sm.covered = true ∧ covered.now % 100000 = 0 ∧ covered.coverageAge = none ∧ s.sm.running = [⟨x, 0⟩] ∧ s.now < 0 + 1000 * sliceLength x.cls ∧
      served.mayTest x = true ∧ served.fitsWindow x = true ∧ served.fw.stage = .running ∧ served.fw.ready.getLsbD 1 = true ∧ served.accepted = [] ∧
      served.serialBusy = none ∧ served.line.syncArm = [] ∧ served.disarming = none ∧ served.arming = none ∧ served.now < served.lastKick 1 + 2000000 ∧
      ({ served with gcnt := 2000000 } : State).lastKick 1 + 2000000 ≤ ({ served with gcnt := 2000000 } : State).now := by decide +kernel

theorem test_witness_SafetyAndCores_order (y : TestSlice) : served.testBefore y ⟨.pse, 0, 0⟩ = false := by
  have trial (c : TestClass) (n : Nat) : served.onTrial c n = false := by simp [State.onTrial, served, State.reset]
  have none_ (x : TestSlice) : served.lastPass x = none := rfl
  simp [State.testBefore, trial, none_]

theorem test_witness_SafetyAndCores_ready :
    let s : State := { served with fw.ready := 0xD }
    let u : State := { served with fw.ready := 0xD, fw.stage := .updating, serialBusy := some 0 }
    s.fw.held.getLsbD 1 = false ∧ s.fw.ready.getLsbD 1 = false ∧ u.fw.stage = .updating ∧ (u.fw.ready ||| (1#4 <<< 1)) ||| u.fw.held = 0xF#4 ∧
      u.accepted = [] := by decide +kernel

theorem test_witness_SafetyAndCores_release :
    served.sm.safeReqAt + 1000000 * served.devField 7 6 10 ≤ ({ served with gcnt := 10000000 } : State).now ∧
      served.now < served.sm.safeReqAt + 1000000 * served.devField 7 6 10 ∧ ({ served with sm.safeReq := true } : State).sm.safeReq = true := by
  decide +kernel

theorem test_witness_PowerAndReset :
    let s : State := { served with lcc.tamperArmed := true, lcc.wipeRunning := true, lcc.transition := some (some 0, .field), lcc.offAt := some 0 }
    let r : Repair := { memory := 0, inst := 0, column := true, bank := 1, index := 2, commit := true }
    (∀ k, k < 4 → (asked [k] served).takes 0 0x0C04 = true) ∧ served.activeJob = none ∧ served.power = .on ∧
      ({ served with power := .idle } : State).takes 0 0x0C04 = true ∧ s.awake = true ∧ s.lcc.tamperArmed = true ∧ s.accepted = [] ∧ s.quiet = true ∧
      s.lcc.transition = some (some 0, .field) ∧ s.now = 0 ∧ s.lcc.offAt.getD (s.now + 1000000) = 0 ∧ State.reset.power = .off ∧ State.reset.lcc.commitQueue = [] ∧
      ({ State.reset with lcc.commitQueue := [r] } : State).lcc.fuses.fieldRepairs.length < 256 ∧
      256 ≤ ({ State.reset with lcc.fuses.fieldRepairs := List.replicate 256 r } : State).lcc.fuses.fieldRepairs.length := by decide +kernel

/-! ## Worked values -/

/-- R37: n = 1,024 of 4,096 counts in machine cycle 5 is a quarter of the cycle. -/
theorem test_quarter_cycle : positionOf 5 1024 4096 = 0x000000054000 := by decide +kernel

/-- R33: a key one LU ahead of the position is ahead, the position itself is due, and so is a key half the range ahead. -/
theorem test_keys : keyAhead 1 0 = true ∧ keyDue 0 0 = true ∧ keyDue 0x800000000000 0 = true := by decide +kernel

/-- R447: the payload check over the nine digits 1 to 9 is 0xE3069283. -/
theorem test_crc32c : crc32c ([0x31, 0x32, 0x33, 0x34, 0x35, 0x36, 0x37, 0x38, 0x39] : List Byte) = 0xE3069283 := by decide +kernel

/-- R362: reset leaves the Safety Manager in Safe-Hold. -/
theorem test_reset_holds : State.reset.smState = 2 := by decide


/-- R379: data word 130 of region 26 is physical word 33,554,432 × 26 + 130 on channel 2.  Its check word is word 31,457,280 + 8 of the region under SEC-DED,
on channel 8, and word 29,360,128 + 16 under the parity of row and column; both times in slot 2. -/
theorem test_physical_words :
    lpPlace false 26 130 = ⟨872415362, 903872520, 2⟩ ∧ lpPlace true 26 130 = ⟨872415362, 901775376, 2⟩ ∧ lpChannel 872415362 = 2 ∧
      lpChannel 903872520 = 8 := by decide +kernel

/-- FIPS 202: SHAKE128 of the empty message begins 7F 9C 2B A4. -/
theorem test_shake128 : shake128 4 [] = [0x7F, 0x9C, 0x2B, 0xA4] := by decide +kernel

/-- FIPS 204: q − 1 has high part 0 and low part −1; 261,889 lies nearer to 523,776 than to 0. -/
theorem test_decompose : decompose 8380416 = (0, -1) ∧ decompose 261889 = (1, -261887) ∧ useHint true 261889 = 0 := by decide +kernel

/-- R290: the residue of 5/2 is 5 × 2^30 mod 2^31 − 1, that of −1 is 2^31 − 2, and residues multiply. -/
theorem test_residues : residue (5 / 2) = 1073741826 ∧ residue (-1) = 2147483646 ∧ residue (2 ^ 31) = 1 := by decide +kernel

/-- R291: equal sums pass, a fault of DPU 6 gives d1 = 7 × d0, and d0 = 0 beside d1 is no DPU's fault. -/
theorem test_fail_dpu : failDpu 0 0 = none ∧ failDpu 3 21 = some 6 ∧ failDpu 0 1 = some 0xFF ∧ failDpu 1 65 = some 0xFF := by decide +kernel

end Sys2Proof.Tests
end

section
/-!
SUPPORT. The queue and the grade under every step (R2; assumption logs 2 and 17).  The law `exec_kept` speaks of the commands under which no fuse and no counter
moves; here the rows on power, fuses and the SYNC edge, and the tick, join them.
-/

namespace Sys2Proof.Machine

open Sys2Proof

/-- An outcome is a next state with the queue and the grade of a state. -/
def KeepsQueue (s : State) (o : Outcome) : Prop := ∃ t, o = .next t ∧ t.pending = s.pending ∧ t.grade = s.grade

theorem Kept.keepsQueue {s : State} {o : Outcome} (h : Kept s o) : KeepsQueue s o := by
  obtain ⟨t, ht, hpending, hgrade, -, -, -⟩ := h
  exact ⟨t, ht, hpending, hgrade⟩

@[simp] theorem settled_pending (s t : State) : (settled s t).pending = s.pending := rfl

@[simp] theorem settled_grade (s t : State) : (settled s t).grade = s.grade := rfl

theorem onPower_keepsQueue (f : State → State) (s : State) : KeepsQueue s (onPower f s) := ⟨_, rfl, rfl, rfl⟩

theorem execSyncEdge_keepsQueue (s : State) : KeepsQueue s (execSyncEdge s) := by
  refine ⟨_, rfl, ?_⟩
  split <;> simp

theorem execThimbleWipeDone_keepsQueue (s : State) : KeepsQueue s (execThimbleWipeDone s) := by
  refine ⟨_, rfl, ?_⟩
  split <;> simp

theorem execPorstAssert_keepsQueue (s : State) : KeepsQueue s (execPorstAssert s) := by
  unfold execPorstAssert; exact onPower_keepsQueue ..

theorem tick_keepsQueue (s : State) : (tick s).pending = s.pending ∧ (tick s).grade = s.grade := by
  unfold tick
  split <;> simp

/-- No command touches the queue or the grade. -/
theorem exec_keepsQueue (c : Instr) (s : State) : KeepsQueue s (exec c s) := by
  cases hc : specialCommand c with
  | false => exact (exec_kept c s hc).keepsQueue
  | true =>
    unfold specialCommand at hc
    split at hc
    · exact execSyncEdge_keepsQueue s
    · exact onPower_keepsQueue _ s
    · exact execPorstAssert_keepsQueue s
    · exact onPower_keepsQueue _ s
    · exact onPower_keepsQueue _ s
    · exact execThimbleWipeDone_keepsQueue s
    · cases hc

/-- Settles O3: a command runs on the queue's rest and keeps it, and a tick keeps the empty queue. -/
theorem queueIsFirstInFirstOut : Obligations.QueueIsFirstInFirstOut := by
  intro s t h
  unfold step at h
  split at h
  case h_1 hempty =>
    cases h
    obtain ⟨hpending, hgrade⟩ := tick_keepsQueue s
    exact ⟨by rw [hpending, hempty]; rfl, hgrade⟩
  case h_2 c rest hfront =>
    obtain ⟨u, hu, hpending, hgrade⟩ := exec_keepsQueue c { s with pending := rest }
    cases hu.symm.trans h
    exact ⟨by rw [hpending, hfront]; rfl, hgrade⟩

end Sys2Proof.Machine
end

section
/-!
SUPPORT. Accesses of the host to BAR0 (R6 to R8, R407): which register an access reaches, what a latch of R8 holds, and an equation for each case of a
read and of a write.
-/

namespace Sys2Proof.Machine

open Sys2Proof

/-! ## The register that an access reaches -/

/-- A wrong width or alignment, a reserved address, or a register of an absent Work Core (R3, R6, R7). -/
def State.misses (s : State) (offset width : Nat) : Prop :=
  width ≠ 4 ∨ offset % 4 ≠ 0 ∨ s.register offset = none ∨ s.grade = .ft9_48I ∧ 0xB001D4 ≤ offset ∧ offset < 0xB00214

/-- The grade has what the register belongs to (R3). -/
def State.present (s : State) (offset : Nat) : Prop := s.grade = .ft9_64I ∨ offset < 0xB001D4 ∨ 0xB00214 ≤ offset

theorem absentRegister_of_present {s : State} {o : Nat} (h : s.present o) : s.absentRegister o = false := by
  unfold State.absentRegister
  rcases h with h | h | h
  · simp [h]
  · simp [Nat.not_le.mpr h]
  · simp [Nat.not_lt.mpr h]

/-- Only the violation counters of the memory block depend on the grade. -/
theorem present_of_lt {o : Nat} (s : State) (h : o < 0xB001D4) : s.present o := .inr (.inl h)

theorem hostRegister_of_misses {s : State} {o w : Nat} (h : s.misses o w) : s.hostRegister o w = none := by
  unfold State.hostRegister
  rcases h with h | h | h | ⟨hg, hlo, hhi⟩
  · simp [h]
  · simp [h]
  · simp [h]
  · simp [State.absentRegister, hg, hlo, hhi]

theorem hostRegister_of_present {s : State} {o : Nat} (ha : o % 4 = 0) (hp : s.present o) : s.hostRegister o 4 = s.register o := by
  simp [State.hostRegister, ha, absentRegister_of_present hp]

/-! ## The latches of the _HI registers (R8) -/

theorem find?_insertBy_of_pos {α : Type} (lt : α → α → Bool) {p : α → Bool} {a : α} {l : List α} (ha : p a = true) (hl : ∀ b ∈ l, p b = false) :
    (insertBy lt a l).find? p = some a := by
  induction l with
  | nil => simp [insertBy, ha]
  | cons b t ih =>
    unfold insertBy
    split
    · simp [ha]
    · rw [List.find?_cons_of_neg (by simp [hl b]), ih fun c hc => hl c (List.mem_cons_of_mem b hc)]

theorem find?_insertBy_of_neg {α : Type} (lt : α → α → Bool) {p : α → Bool} {a : α} (l : List α) (ha : p a = false) :
    (insertBy lt a l).find? p = l.find? p := by
  induction l with
  | nil => simp [insertBy, ha]
  | cons b t ih =>
    unfold insertBy
    split
    · rw [List.find?_cons_of_neg (by simp [ha])]
    · simp only [List.find?_cons, ih]

theorem latchedHi_latchHi_self (o : Nat) (v : Reg) (s : State) : (latchHi o v s).latchedHi o = v := by
  unfold State.latchedHi latchHi
  rw [find?_insertBy_of_pos _ (by simp) (by simp)]
  rfl

theorem latchedHi_latchHi_ne {o x : Nat} (v : Reg) (s : State) (h : x ≠ o) : (latchHi o v s).latchedHi x = s.latchedHi x := by
  have hfilter : (s.hiLatches.filter (·.1 != o)).find? (·.1 == x) = s.hiLatches.find? (·.1 == x) := by
    rw [List.find?_filter]
    congr 1
    funext c
    by_cases hc : c.1 = x
    · simp [hc, h]
    · simp [hc]
  unfold State.latchedHi latchHi
  rw [find?_insertBy_of_neg _ _ (by simpa using h.symm), hfilter]

/-! ## Reads -/

theorem exec_registerLoRead {s : State} (h : s.hostReaches = true) (o : BitVec 28) (w : Nat) :
    exec (.registerLoRead o w) s = .next (settled s (readBar0 o.toNat w s)) := fromHost_reaches h

theorem readBar0_of_misses {s : State} {o w : Nat} (h : s.misses o w) :
    readBar0 o w s = answer (toBytes 0 w) false (violate 0 o true false false s) := by
  simp [readBar0, hostRegister_of_misses h]

/-- A _HI register reads the half latched last. -/
theorem readBar0_hi {s : State} {o r : Nat} (hr : s.hostRegister o 4 = some r) (hh : isHi o = true) :
    readBar0 o 4 s = answer (toBytes (s.latchedHi o).toNat 4) false s := by
  simp [readBar0, hr, hh]

/-- A _LO register reads its value and latches its _HI half. -/
theorem readBar0_lo {s : State} {o lo hi : Nat} (hr : s.hostRegister o 4 = some lo) (hl : isLo o = true) (hh : isHi o = false)
    (hhi : s.register (o + 4) = some hi) :
    readBar0 o 4 s = answer (toBytes lo 4) false (latchHi (o + 4) (BitVec.ofNat 32 hi) s) := by
  simp [readBar0, hr, hl, hh, hhi]

theorem readBar0_plain {s : State} {o r : Nat} (hr : s.hostRegister o 4 = some r) (hl : isLo o = false) (hh : isHi o = false) :
    readBar0 o 4 s = answer (toBytes r 4) false s := by
  simp [readBar0, hr, hl, hh]

/-! ## Writes -/

theorem exec_registerWrite {s : State} (h : s.hostReaches = true) (o : BitVec 28) (w : Nat) (v : Reg) :
    exec (.registerWrite o w v) s = .next (settled s (writeBar0 o.toNat w v s)) := fromHost_reaches h

theorem writeBar0_of_misses {s : State} {o w : Nat} (v : Reg) (h : s.misses o w) : writeBar0 o w v s = violate 0 o true true false s := by
  simp [writeBar0, hostRegister_of_misses h]

theorem writeBar0_scratch (v : Reg) (s : State) : writeBar0 0x18 4 v s = { s with lcc.scratch := v } := by
  have hr : s.hostRegister 0x18 4 = some s.lcc.scratch.toNat := hostRegister_of_present rfl (present_of_lt s (by decide))
  simp [writeBar0, hr]

/-- A write to a mailbox register reaches the mailbox block. -/
theorem writeBar0_mailbox {s : State} {n r : Nat} (v : Reg) (hn : n < 4) (hr : r < 0x100)
    (hs : (s.hostRegister (0x100000 + 0x100 * n + r) 4).isSome = true) :
    writeBar0 (0x100000 + 0x100 * n + r) 4 v s = writeMailboxReg n r (0x100000 + 0x100 * n + r) v s := by
  have hblock : (0x100000 + 0x100 * n + r) / 0x100000 = 1 := by omega
  have hoffset : (0x100000 + 0x100 * n + r) % 0x100000 = 0x100 * n + r := by omega
  have hbox : (0x100 * n + r) / 0x100 = n := by omega
  have hreg : (0x100 * n + r) % 0x100 = r := by omega
  have hlt : 0x100 * n + r < 0x400 := by omega
  have hne : 0x100000 + 0x100 * n + r ≠ 0x18 := by omega
  simp [writeBar0, writeMailboxBlock, Option.isNone_eq_false_iff.mpr hs, hblock, hoffset, hbox, hreg, hlt, hne]

/-- The registers of mailbox n stand at their offsets within the block (R490). -/
theorem hostRegister_mailbox {s : State} {n r : Nat} (hn : n < 4) (hr : r < 0x100) (ha : r % 4 = 0) :
    s.hostRegister (0x100000 + 0x100 * n + r) 4 = mailboxReg (s.box n) r := by
  have hblock : (0x100000 + 0x100 * n + r) / 0x100000 = 1 := by omega
  have hoffset : (0x100000 + 0x100 * n + r) % 0x100000 = 0x100 * n + r := by omega
  have hbox : (0x100 * n + r) / 0x100 = n := by omega
  have hreg : (0x100 * n + r) % 0x100 = r := by omega
  have hlt : 0x100 * n + r < 0x400 := by omega
  rw [hostRegister_of_present (by omega) (present_of_lt s (by omega))]
  simp [State.register, mailboxBlockReg, hblock, hoffset, hbox, hreg, hlt]

theorem writeBar0_status {n o : Nat} (v : Reg) (s : State) (hn : n < 4) (ho : o = 0x100004 + 0x100 * n) :
    writeBar0 o 4 v s = writeStatus n v s := by
  obtain rfl : o = 0x100000 + 0x100 * n + 4 := by omega
  have hs : s.hostRegister (0x100000 + 0x100 * n + 4) 4 = some (mbxStatusReg (s.box n)) := hostRegister_mailbox hn (by decide) rfl
  exact writeBar0_mailbox v hn (by decide) (by simp [hs])

theorem writeBar0_arg {n k o : Nat} (v : Reg) (s : State) (hn : n < 4) (hk : k < 16) (ho : o = 0x100020 + 0x100 * n + 4 * k) :
    writeBar0 o 4 v s = writeArg n k o v s := by
  obtain ⟨r, hr, rfl⟩ : ∃ r, r = 0x20 + 4 * k ∧ o = 0x100000 + 0x100 * n + r := ⟨_, rfl, by omega⟩
  have hdoorbell : r ≠ 0 := by omega
  have hstatus : r ≠ 4 := by omega
  have hlo : 0x20 ≤ r := by omega
  have hhi : r < 0x60 := by omega
  have halign : r % 4 = 0 := by omega
  have hindex : (r - 0x20) / 4 = k := by omega
  have hs : (mailboxReg (s.box n) r).isSome = true := by simp [mailboxReg, hdoorbell, hstatus, hlo, hhi, halign]
  rw [writeBar0_mailbox v hn (by omega) (by rwa [hostRegister_mailbox hn (by omega) halign])]
  simp [writeMailboxReg, hdoorbell, hstatus, hlo, hhi, hindex]

theorem writeArg_idle {n k o : Nat} (v : Reg) {s : State} (h : (s.box n).busy = false) :
    writeArg n k o v s = { s with mbx := upd s.mbx n fun b => { b with args := upd b.args k fun _ => v } } := by
  simp [writeArg, h]

theorem writeArg_busy {n k o : Nat} (v : Reg) {s : State} (h : (s.box n).busy = true) : writeArg n k o v s = violate 0 o true true false s := by
  simp [writeArg, h]

/-- A register outside the mailbox block and LCC_SCRATCH ignores a write. -/
theorem writeBar0_readOnly {s : State} {o : Nat} (v : Reg) (hs : (s.hostRegister o 4).isSome = true) (h18 : o ≠ 0x18) (hb : o / 0x100000 ≠ 1) :
    writeBar0 o 4 v s = s := by
  simp [writeBar0, Option.isNone_eq_false_iff.mpr hs, h18, hb]

/-- Settles O31: each clause is the equation of its case of a read or a write. -/
theorem registerAccess : Obligations.RegisterAccess := by
  intro s h
  refine ⟨fun o w v hm => ⟨?_, ?_⟩, fun o r ha hp hr hl hh => ?_, fun o lo hi ha hp hr hl hh hhi => ?_, fun o r ha hp hr hh => ?_, fun v => ?_,
    fun n k o v ho => ⟨fun hb => ?_, fun hb => ?_⟩, fun n o v ho => ?_, fun o v ha hr h18 hblock hp => ?_⟩
  · rw [exec_registerLoRead h, readBar0_of_misses hm]; rfl
  · rw [exec_registerWrite h, writeBar0_of_misses v hm]
  · rw [exec_registerLoRead h, readBar0_plain (by rwa [hostRegister_of_present ha hp]) hl hh]; rfl
  · refine ⟨latchHi (o.toNat + 4) (BitVec.ofNat 32 hi) s, ?_, latchedHi_latchHi_self .., fun x hx => latchedHi_latchHi_ne _ s hx, rfl⟩
    rw [exec_registerLoRead h, readBar0_lo (by rwa [hostRegister_of_present ha hp]) hl hh hhi]; rfl
  · rw [exec_registerLoRead h, readBar0_hi (by rwa [hostRegister_of_present ha hp]) hh]; rfl
  · exact (exec_registerWrite h 0x18 4 v).trans (by rw [← writeBar0_scratch]; rfl)
  · rw [exec_registerWrite h, writeBar0_arg v s n.isLt k.isLt ho, writeArg_idle v hb]
  · rw [exec_registerWrite h, writeBar0_arg v s n.isLt k.isLt ho, writeArg_busy v hb]
  · rw [exec_registerWrite h, writeBar0_status v s n.isLt ho]; rfl
  · rw [exec_registerWrite h, writeBar0_readOnly v (by rwa [hostRegister_of_present ha hp]) h18 hblock]

end Sys2Proof.Machine
end

section
/-!
SUPPORT. The state in which an accepted mailbox command starts, and the commands that are one check: their completion is that of the check.
-/

namespace Sys2Proof.Machine

open Sys2Proof

/-! ## The state in which a command starts -/

/-- Acceptance touches the mailbox and, for a command that computes, the arithmetic domain's power alone (R420, R502). -/
theorem issued_eq (s : State) (n code : Nat) (q : BitVec 16) :
    s.issued n code q = { s with power := (s.issued n code q).power, mbx := (s.issued n code q).mbx } := by
  unfold State.issued; split <;> rfl

section
variable (s : State) (n code : Nat) (q : BitVec 16)

@[simp] theorem issued_gcnt : (s.issued n code q).gcnt = s.gcnt := by rw [issued_eq]
@[simp] theorem issued_memCtl : (s.issued n code q).memCtl = s.memCtl := by rw [issued_eq]
@[simp] theorem issued_me : (s.issued n code q).me = s.me := by rw [issued_eq]
@[simp] theorem issued_fw : (s.issued n code q).fw = s.fw := by rw [issued_eq]
@[simp] theorem issued_line : (s.issued n code q).line = s.line := by rw [issued_eq]
@[simp] theorem issued_jobs : (s.issued n code q).jobs = s.jobs := by rw [issued_eq]
@[simp] theorem issued_devBlocks : (s.issued n code q).devBlocks = s.devBlocks := by rw [issued_eq]
@[simp] theorem issued_claims : (s.issued n code q).claims = s.claims := by rw [issued_eq]
@[simp] theorem issued_pat : (s.issued n code q).pat = s.pat := by rw [issued_eq]
@[simp] theorem issued_sm : (s.issued n code q).sm = s.sm := by rw [issued_eq]

@[simp] theorem issued_now : (s.issued n code q).now = s.now := by simp [State.now]
@[simp] theorem issued_activeJob : (s.issued n code q).activeJob = s.activeJob := by simp [State.activeJob]
@[simp] theorem issued_standing : (s.issued n code q).standing = s.standing := by simp [State.standing]
@[simp] theorem issued_role : (s.issued n code q).role = s.role := by
  rw [issued_eq]; rfl
@[simp] theorem issued_slotSpan (slot : Nat) : (s.issued n code q).slotSpan slot = s.slotSpan slot := by
  rw [issued_eq]; rfl
end

/-- The mailbox of a command that has started is of its opcode's class (R421). -/
theorem issued_immediate {s : State} {n code : Nat} {o : Opcode} (hn : n < s.mbx.length) (ho : opcodeOf code = some o) (q : BitVec 16) :
    ((s.issued n code q).box n).immediate = o.immediate := by
  simp [State.issued, State.box, ho, nth_upd _ _ _ _ hn]

/-! ## Checks -/

@[simp] theorem need_true (r a b : Nat) : need true r a b = .ok () := rfl

@[simp] theorem need_false (r a b : Nat) : need false r a b = .error { reason := r, detailA := a, detailB := b } := rfl

@[simp] theorem ok_bind_check {α β : Type} (x : α) (f : α → Check β) : ((.ok x : Check α) >>= f) = f x := rfl

@[simp] theorem error_bind_check {α β : Type} (e : Fail) (f : α → Check β) : ((.error e : Check α) >>= f) = .error e := rfl

/-! ## Commands that are one check -/

section
variable {n : Fin 4} {code : Nat} {q : BitVec 16} {s : State} {i : Instr} {c : State → Check State}

/-- The row is the doorbell of an opcode whose command is a check on the state in which it starts. -/
structure ChecksOnce (n : Fin 4) (code : Nat) (q : BitVec 16) (s : State) (i : Instr) (c : State → Check State) : Prop where
  row : exec i s = fromHost (doorbell n (BitVec.ofNat 16 code) q) s
  small : code < 65536
  run : runCommand n code (s.arguments n) (s.issued n code q) = Machine.now (checkCmd (c (s.issued n code q)) (s.issued n code q))

theorem ChecksOnce.completes_of_ok (h : ChecksOnce n code q s i c) (ht : s.takes n code = true) {t : State} (hc : c (s.issued n code q) = .ok t) :
    s.completes i n {} t :=
  row_some h.row ht h.small (by rw [h.run, hc]; rfl)

theorem ChecksOnce.completes_of_error (h : ChecksOnce n code q s i c) (ht : s.takes n code = true) {r a : Nat}
    (hc : c (s.issued n code q) = .error { reason := r, detailA := a }) :
    s.completes i n { status := .refused, reason := r, a := a } (s.issued n code q) :=
  row_some h.row ht h.small (by rw [h.run, hc]; rfl)
end

theorem patternRetire_checksOnce (n : Fin 4) (q : BitVec 16) (s : State) : ChecksOnce n 0x0302 q s (.patternRetire n q) patternRetire :=
  ⟨rfl, by decide, rfl⟩

theorem safetyResume_checksOnce (n : Fin 4) (q : BitVec 16) (s : State) : ChecksOnce n 0x0901 q s (.safetyResume n q) safetyResume :=
  ⟨rfl, by decide, rfl⟩

theorem memoryMode_checksOnce (n : Fin 4) (q : BitVec 16) (s : State) :
    ChecksOnce n 0x0A01 q s (.memoryMode n q) (memoryMode (bits (arg (s.arguments n) 0) 0 1 == 1)) := ⟨rfl, by decide, rfl⟩

theorem moveEngineResume_checksOnce (n : Fin 4) (q : BitVec 16) (s : State) :
    ChecksOnce n 0x0A04 q s (.moveEngineResume n q) (resumeEngine (bits (arg (s.arguments n) 0) 0 4)) := ⟨rfl, by decide, rfl⟩

/-! ## What each check answers -/

theorem patternRetire_active {s : State} (h : s.activeJob.isSome = true) : patternRetire s = .error { reason := 0x0112 } := by
  simp [patternRetire, Option.isNone_eq_false_iff.mpr h]

theorem patternRetire_none {s : State} (hj : s.activeJob = none) (hp : s.pat.active = none) : patternRetire s = .error { reason := 0x0304 } := by
  simp [patternRetire, hj, hp]

theorem patternRetire_some {s : State} (hj : s.activeJob = none) (hp : s.pat.active.isSome = true) :
    patternRetire s = .ok { s with pat.active := none } := by
  simp [patternRetire, hj, hp]

theorem safetyResume_clear {s : State} (h : s.standing = 0) : safetyResume s = .ok { s with sm.latched := 0 } := by
  simp [safetyResume, h]

theorem safetyResume_standing {s : State} (h : s.standing ≠ 0) :
    safetyResume s = .error { reason := 0x0906, detailA := s.standing } := by
  simp [safetyResume, beq_false_of_ne h]

theorem memoryMode_active {s : State} (m : Bool) (h : s.activeJob.isSome = true) : memoryMode m s = .error { reason := 0x0112 } := by
  simp [memoryMode, Option.isNone_eq_false_iff.mpr h]

theorem flushAll_of_empty {s : State} (h : s.memCtl.merge = []) : flushAll s = s := by
  simp [flushAll, h]

/-- Nothing is flushed where no entry waits or the policy becomes Maintenance (R403, R405). -/
theorem memoryMode_keeps {s : State} {m : Bool} (hj : s.activeJob = none) (h : s.memCtl.merge = [] ∨ m = true) :
    memoryMode m s = .ok { s with memCtl.maintenance := m } := by
  rcases h with h | rfl
  · simp [memoryMode, hj, flushAll_of_empty h]
  · simp [memoryMode, hj]

/-- The change to Service flushes the merge buffer first (R403). -/
theorem memoryMode_flushes {s : State} (hj : s.activeJob = none) (h : s.memCtl.maintenance = true) :
    memoryMode false s = .ok { flushAll s with memCtl.maintenance := false } := by
  simp [memoryMode, hj, h]

theorem resumeEngine_running {s : State} {m : Nat} (h : s.me.halted.getLsbD m = false) : resumeEngine m s = .error { reason := 0x0114 } := by
  simp [resumeEngine, h]

/-- Clearing bit m of a mask leaves every other bit. -/
theorem getLsbD_clearBit (h : BitVec 16) {m : Nat} (i : Nat) :
    (h &&& ~~~BitVec.ofNat 16 (2 ^ m)).getLsbD i = (h.getLsbD i && decide (i ≠ m)) := by
  rw [BitVec.getLsbD_and, BitVec.getLsbD_not, BitVec.getLsbD_ofNat, Nat.testBit_two_pow]
  by_cases hi : i < 16
  · simp [hi, eq_comm]
  · simp [BitVec.getLsbD_of_ge _ _ (Nat.le_of_not_lt hi)]

/-- The halt of engine m ends, and that of no other (R401). -/
theorem resumeEngine_halted {s : State} {m : Nat} (hm : s.me.halted.getLsbD m = true) :
    ∃ h : BitVec 16, h.getLsbD m = false ∧ (∀ i, i ≠ m → h.getLsbD i = s.me.halted.getLsbD i) ∧
      resumeEngine m s = .ok { s with me.halted := h } := by
  refine ⟨s.me.halted &&& ~~~BitVec.ofNat 16 (2 ^ m), ?_, fun i hi => ?_, ?_⟩
  · rw [getLsbD_clearBit]; simp
  · rw [getLsbD_clearBit]; simp [hi]
  · simp [resumeEngine, hm]

/-- An IMMEDIATE command that goes on holds no serial order (R421). -/
theorem goesOn_of_immediate {n : Fin 4} {code : Nat} {q : BitVec 16} {s t : State} {i : Instr}
    (hi : exec i s = fromHost (doorbell n (BitVec.ofNat 16 code) q) s) (h : s.takes n code = true) (hc : code < 65536)
    (hr : runCommand n code (s.arguments n) (s.issued n code q) = (t, none)) (ht : (t.box n).immediate = true) : s.goesOn i t := by
  unfold State.goesOn
  rw [row_none hi h hc hr, if_pos ht]

/-- SYNC_ALIGN goes on until an edge or its timeout (R56). -/
theorem syncAlign_goesOn {n : Fin 4} {q : BitVec 16} {s : State} (h : s.takes n 0x0B02 = true) :
    s.goesOn (.syncAlign n q) (syncAlignCmd n (s.arguments n) (s.issued n 0x0B02 q)).1 := by
  have hrest : s.atRest n = true := (Bool.and_eq_true_iff.mp h).1
  obtain ⟨-, hn, -⟩ := rest_split hrest
  have himm : ((s.issued n 0x0B02 q).box n).immediate = true := issued_immediate (code := 0x0B02) hn rfl q
  exact goesOn_of_immediate rfl h (by decide) rfl himm

/-! ## The statement -/

/-- Settles O24: each clause is what the command's check answers in the state in which it starts. -/
theorem shortMailboxCommands : Obligations.ShortMailboxCommands := by
  refine ⟨fun n q s h => ?_, fun n q s h => ?_, fun n q s h => ?_, fun n q s h => ?_, fun n q s h => ?_, fun n q s h => ?_⟩
  · have row := patternRetire_checksOnce n q s
    refine ⟨fun hj => ?_, fun hj hp => ?_, fun hj hp => ?_⟩
    · exact row.completes_of_error h (patternRetire_active (by simpa using hj))
    · exact row.completes_of_error h (patternRetire_none (by simpa using hj) (by simpa using hp))
    · exact row.completes_of_ok h (patternRetire_some (by simpa using hj) (by simpa using hp))
  · have row := safetyResume_checksOnce n q s
    refine ⟨fun hs => ?_, fun hs => ?_⟩
    · exact row.completes_of_ok h (safetyResume_clear (by simpa using hs))
    · exact issued_standing s n 0x0901 q ▸ row.completes_of_error h (safetyResume_standing (by simpa using hs))
  · have row := memoryMode_checksOnce n q s
    refine ⟨fun hj => ?_, fun hj hm => ?_, fun hj hs hm => ?_⟩
    · exact row.completes_of_error h (memoryMode_active _ (by simpa using hj))
    · exact row.completes_of_ok h (memoryMode_keeps (by simpa using hj) (by simpa using hm))
    · rw [hm] at row
      exact row.completes_of_ok h (memoryMode_flushes (by simpa using hj) (by simpa using hs))
  · have row := moveEngineResume_checksOnce n q s
    refine ⟨fun hm => ?_, fun hm => ?_⟩
    · exact row.completes_of_error h (resumeEngine_running (by simpa using hm))
    · obtain ⟨halted, hself, hothers, hrun⟩ := resumeEngine_halted (s := s.issued n 0x0A04 q) (by simpa using hm)
      exact ⟨halted, hself, by simpa using hothers, row.completes_of_ok h hrun⟩
  · exact row_some rfl h (by decide) rfl
  · have hgo := syncAlign_goesOn (q := q) h
    simpa [syncAlignCmd] using hgo

end Sys2Proof.Machine
end

section
/-!
SUPPORT. The install of a Pattern (R140): what each of its steps may change, how its program ends, and what its command answers.
-/

namespace Sys2Proof.Machine

open Sys2Proof

/-! ## Steps that change memories and reports alone -/

/-- Whatever way it ends, the program changes nothing but what `Reported` names. -/
def Reporting {α : Type} (m : Run α) : Prop := ∀ s, Reported s (runProg m s).1

theorem reporting_pure {α : Type} (a : α) : Reporting (pure a) := Reported.refl

theorem reporting_get : Reporting get := Reported.refl

theorem reporting_checkOp {α : Type} (f : State → Check α) : Reporting (checkOp f) := Reported.refl

theorem reporting_ensure (c : Bool) (r a b : Nat) : Reporting (ensure c r a b) := fun s => by rw [run_ensure]; exact Reported.refl s

theorem reporting_poisoned {α : Type} (a b : Nat) : Reporting (poisoned a b : Run α) := Reported.refl

theorem reporting_stateOp {α : Type} {f : State → State × α} (h : ∀ s, Reported s (f s).1) : Reporting (stateOp f) := h

theorem reporting_change {f : State → State} (h : ∀ s, Reported s (f s)) : Reporting (change f) := h

theorem Reporting.bind {α β : Type} {m : Run α} {f : α → Run β} (hm : Reporting m) (hf : ∀ a, Reporting (f a)) : Reporting (m >>= f) := by
  intro s
  have hs := hm s
  rw [run_bind]
  split
  case h_1 t a heq => rw [heq] at hs; exact hs.trans (hf a t)
  case h_2 t e heq => rw [heq] at hs; exact hs

theorem getAll_reporting (r : Requester) (k n a b : Nat) : Reporting (getAll r k n a b) := by
  refine (reporting_stateOp (readWords_reported r k n)).bind fun gs => ?_
  split
  · exact reporting_poisoned a b
  · exact reporting_pure _

theorem readSections_reported (r : Requester) (base : Nat) (h : List Word) (l : List Nat) (s : State) :
    Reported s (readSections r base h l s).1 := by
  induction l generalizing s with
  | nil => exact Reported.refl s
  | cons i t ih => exact (readWords_reported r _ _ s).trans (ih _)

theorem moveWords_reported (r : Requester) (dst : Nat) (keys : List Nat) (s : State) : Reported s (moveWords r dst keys s).1 := by
  induction keys generalizing dst s with
  | nil => exact Reported.refl s
  | cons k t ih =>
    have hread := readWord_reported r k s
    unfold moveWords
    dsimp only
    split
    · exact hread
    · exact hread.trans ((writeWord_reported dst _ _).trans (ih (dst + 1) _))

/-! ## How an install may end -/

/-- How an install fails: with memories and reports alone changed, or in a copy at a word that cannot be read, after which no Pattern is active (R140,
R401). -/
def FailsInstall (s t : State) (f : Fail) : Prop := Reported s t ∨ t.pat.active = none ∧ f.reason = 0x0A07

theorem FailsInstall.active {s t : State} {f : Fail} (h : FailsInstall s t f) :
    t.pat.active = s.pat.active ∨ t.pat.active = none ∧ f.reason = 0x0A07 :=
  h.imp_left fun hr => by rw [hr.pat]

/-- The end of a part of an install that starts from s: where it passes, P relates a state that has only reported to its end. -/
def InstallEnds {α : Type} (P : State → State → Prop) (s : State) : State × Except Fail α → Prop
  | (t, .ok _) => ∃ u, Reported s u ∧ P u t
  | (t, .error f) => FailsInstall s t f

theorem InstallEnds.after_reports {α : Type} {P : State → State → Prop} {s t : State} {r : State × Except Fail α} (h : Reported s t)
    (hr : InstallEnds P t r) : InstallEnds P s r := by
  obtain ⟨v, f | a⟩ := r
  · exact hr.imp_left h.trans
  · obtain ⟨u, hu, hP⟩ := hr
    exact ⟨u, h.trans hu, hP⟩

/-- A part of an install, from whatever state it starts. -/
structure InstallPart {α : Type} (P : State → State → Prop) (m : Run α) : Prop where
  ends : ∀ s, InstallEnds P s (runProg m s)

theorem InstallPart.bind {α β : Type} {P : State → State → Prop} {m : Run α} {f : α → Run β} (hm : InstallPart Eq m)
    (hf : ∀ a, InstallPart P (f a)) : InstallPart P (m >>= f) := by
  refine ⟨fun s => ?_⟩
  have hs := hm.ends s
  rw [run_bind]
  rcases hrun : runProg m s with ⟨t, e | a⟩ <;> rw [hrun] at hs
  · exact hs
  · obtain ⟨u, hu, rfl⟩ := hs
    exact ((hf a).ends u).after_reports hu

theorem Reporting.installPart {α : Type} {m : Run α} (h : Reporting m) : InstallPart Eq m := by
  refine ⟨fun s => ?_⟩
  have hs := h s
  rcases hrun : runProg m s with ⟨t, e | a⟩ <;> rw [hrun] at hs
  · exact .inl hs
  · exact ⟨t, hs, rfl⟩

theorem InstallPart.after {α β : Type} {P : State → State → Prop} {m : Run α} {f : α → Run β} (hm : Reporting m)
    (hf : ∀ a, InstallPart P (f a)) : InstallPart P (m >>= f) := hm.installPart.bind hf

theorem installPart_throw {α : Type} (P : State → State → Prop) (f : Fail) : InstallPart P (throw f : Run α) :=
  ⟨fun s => .inl (Reported.refl s)⟩

/-- What would follow a poisoned word is not run. -/
theorem installPart_poisoned_bind {α β : Type} (P : State → State → Prop) (a b : Nat) (f : α → Run β) :
    InstallPart P (poisoned a b >>= f) := ⟨fun s => .inl (Reported.refl s)⟩

/-- The copy of a section (R140 step 6) reports alone where it passes; where it fails no Pattern is active. -/
theorem copySection_installPart (base : Nat) (h : List Word) (x : Nat × Nat) : InstallPart Eq (copySection base h x) := by
  refine ⟨fun s => ?_⟩
  have hmove := moveWords_reported { num := 78 + (Config.freeValue s.freeCount).toNat % 16 } x.2
    ((List.range (sectionOf h x.1).2).map (base + (sectionOf h x.1).1 + ·)) { s with freeCount := s.freeCount + 1 }
  unfold copySection runProg
  dsimp only [ExceptT.run, StateT.run]
  generalize moveWords _ _ _ _ = r at hmove ⊢
  obtain ⟨t, gs, _ | k⟩ := r
  · exact ⟨t, Reported.trans (t := { s with freeCount := s.freeCount + 1 }) rfl hmove, rfl⟩
  · exact .inr ⟨rfl, rfl⟩

theorem eachRun_installPart {α : Type} {f : α → Run Unit} (hf : ∀ a, InstallPart Eq (f a)) (l : List α) : InstallPart Eq (eachRun f l) := by
  induction l with
  | nil => exact (reporting_pure ()).installPart
  | cons x t ih => exact (hf x).bind fun _ => ih

/-! ## The program of R140 -/

/-- Activation of a Pattern of a slot (R140 step 7). -/
def Activates (slot : Nat) (t v : State) : Prop := ∃ p : Pattern, p.slot = slot ∧ v = activatePattern p t

theorem activatePattern_installPart {slot : Nat} {p : Pattern} (h : p.slot = slot) :
    InstallPart (Activates slot) (change (activatePattern p)) := ⟨fun s => ⟨s, Reported.refl s, p, h, rfl⟩⟩

/-- Steps 1 to 7 of R140: where they pass a Pattern of the slot is activated on a state that has only reported. -/
theorem installSteps_installPart (slot : Nat) : InstallPart (Activates slot) (installSteps slot) := by
  unfold installSteps
  refine .after reporting_get fun s0 => ?_
  refine .after (reporting_ensure _ _ _ _) fun _ => ?_
  refine .after (getAll_reporting _ _ _ _ _) fun h => ?_
  refine .after (reporting_checkOp _) fun _ => ?_
  refine .after (reporting_checkOp _) fun _ => ?_
  refine .after (reporting_checkOp _) fun _ => ?_
  refine .after (getAll_reporting _ _ _ _ _) fun block => ?_
  refine .after (reporting_checkOp _) fun _ => ?_
  refine .after (reporting_stateOp (readSections_reported _ _ _ _)) fun secs => ?_
  dsimp only
  split
  · exact installPart_poisoned_bind ..
  refine .after (reporting_checkOp _) fun _ => ?_
  split
  · exact .after (reporting_change fun s => writeEvent_reported _ s) fun _ => installPart_throw _ _
  · exact (eachRun_installPart (copySection_installPart _ h) _).bind fun _ => activatePattern_installPart rfl

theorem installSteps_passes {slot : Nat} {s v : State} (h : runProg (installSteps slot) s = (v, .ok ())) :
    ∃ t, Reported s t ∧ Activates slot t v := by
  have hends := (installSteps_installPart slot).ends s
  rwa [h] at hends

theorem installSteps_fails {slot : Nat} {s v : State} {f : Fail} (h : runProg (installSteps slot) s = (v, .error f)) : FailsInstall s v f := by
  have hends := (installSteps_installPart slot).ends s
  rwa [h] at hends

/-- A slot without regions fails step 3 of R140 before its header is read. -/
theorem installSteps_no_regions {slot : Nat} {s : State} (h : (s.slotSpan slot).len = 0) :
    runProg (installSteps slot) s = (s, .error { reason := 0x0303, detailA := 1 }) := by
  unfold installSteps
  simp only [run_bind, run_get, run_ensure, h, bne_self_eq_false, Bool.false_eq_true, if_false]

/-! ## What the command answers -/

theorem patternInstallCmd_active {s : State} (a : List Nat) (h : s.activeJob.isSome = true) :
    patternInstallCmd a s = (s, { status := .refused, reason := 0x0112 }) := by
  unfold patternInstallCmd patternInstall
  rw [if_pos h]
  rfl

theorem patternInstallCmd_passes {a : List Nat} {s v : State} (hj : s.activeJob = none)
    (h : runProg (installSteps (bits (arg a 0) 0 1)) s = (v, .ok ())) :
    patternInstallCmd a s = ({ v with pat.installsOk := satAdd 65535 v.pat.installsOk 1 }, {}) := by
  simp [patternInstallCmd, patternInstall, hj, h, countInstall]

theorem patternInstallCmd_fails {a : List Nat} {s v : State} {f : Fail} (hj : s.activeJob = none)
    (h : runProg (installSteps (bits (arg a 0) 0 1)) s = (v, .error f)) :
    patternInstallCmd a s =
      ({ v with pat.installsFailed := satAdd 65535 v.pat.installsFailed 1, pat.lastResult := BitVec.ofNat 16 f.reason }, f.completion) := by
  simp [patternInstallCmd, patternInstall, hj, h, countInstall]

/-- The doorbell of PATTERN_INSTALL completes with what its command answers. -/
theorem patternInstall_completes {n : Fin 4} {q : BitVec 16} {s t : State} {c : Completion} (h : s.takes n 0x0301 = true)
    (hr : patternInstallCmd (s.arguments n) (s.issued n 0x0301 q) = (t, c)) : s.completes (.patternInstall n q) n c t :=
  row_some rfl h (by decide) (congrArg Machine.now hr)

end Sys2Proof.Machine

namespace Sys2Proof

open Sys2Proof.Machine

/-- Settles O22: an install activates its Pattern on a state that has only reported, or fails having only reported, a copy's halt apart. -/
theorem patternInstall : Obligations.PatternInstall := by
  intro n q s h
  refine ⟨fun hj => ?_, fun hj hlen => ?_, fun v hj hrun => ?_, fun v f hj hrun => ⟨?_, ?_⟩⟩
  · exact patternInstall_completes h (patternInstallCmd_active _ (by simpa using hj))
  · exact patternInstall_completes h (patternInstallCmd_fails (by simpa using hj) (installSteps_no_regions (by simpa using hlen)))
  · obtain ⟨t, ht, p, hslot, rfl⟩ := installSteps_passes hrun
    refine ⟨p, hslot, rfl, rfl, rfl, rfl, rfl, rfl, rfl, ?_, ?_, ?_, ?_⟩
    · exact ht.jobs.trans (issued_jobs ..)
    · exact ht.devBlocks.trans (issued_devBlocks ..)
    · exact ht.claims.trans (issued_claims ..)
    · exact patternInstall_completes h (patternInstallCmd_passes (by simpa using hj) hrun)
  · simpa using (installSteps_fails hrun).active
  · exact patternInstall_completes h (patternInstallCmd_fails (by simpa using hj) hrun)

end Sys2Proof
end
